-- ==== Sys2Proof/Word.lean ====
section
/-! DEFINITION. The words of the yard link and of the millisecond counter. -/

namespace Sys2Proof

/-- A byte of the yard link (R161). -/
abbrev Byte := BitVec 8

/-- A value of the 32-bit millisecond counter (R182). -/
abbrev Time := BitVec 32

/-- A coil id or a truck id: a 32-bit number (00, Conventions). -/
abbrev CoilId := BitVec 32

/-- A zone mask, one bit per zone index (R40, R135). -/
abbrev ZoneMask := BitVec 32

/-- The CRC register (R162). -/
abbrev Check := BitVec 16

end Sys2Proof
end

