-- ==== Sys2Proof/Syntax.lean ====
section
/-! DEFINITION. The commands of the block: one constructor per row of spec/opcode_table.json. A row that a frame brings
has no operand here: its operands stand in the frame at the head of the port's receive FIFO (R163, R165, R166). -/

namespace Sys2Proof

/-- The two link ports (00, Block diagram). -/
inductive PortId where
  | supervisor
  | crane
deriving DecidableEq, Repr

/-- The levels of the 22 discrete inputs at one sample (R70); true is ACTIVE. -/
structure Samples where
  stop : Vector Bool 4
  red : Vector Bool 6
  green : Vector Bool 6
  driver : Vector Bool 6
deriving DecidableEq, Repr

/-- The commands, in the order of spec/opcode_table.json. -/
inductive Instr where
  /-- POWER_ON (R192): the end of power-on, with the two station strap inputs. -/
  | powerOn (straps : BitVec 2)
  /-- RESET_LINE_ASSERTED (R192). -/
  | resetLineAsserted
  /-- RESET_LINE_RELEASED (R192), with the two station strap inputs. -/
  | resetLineReleased (straps : BitVec 2)
  /-- FRAME_RECEIVED (R161, R162): the bytes that arrive on a port's line without a gap above 50 µs between them. -/
  | frameReceived (port : PortId) (line : List Byte)
  /-- INTER_BYTE_GAP (R161): a gap above 50 µs on a port's line, and the byte after it. -/
  | interByteGap (port : PortId) (next : Byte)
  /-- SUPERVISOR_FRAME_FORWARD (R165). -/
  | supervisorFrameForward
  /-- CRANE_FRAME_FORWARD (R166). -/
  | craneFrameForward
  /-- FRAME_SENT (R169): a port's transmitter completes its frame. -/
  | frameSent (port : PortId)
  /-- REPLY_ENTRY_GRANT (R173). -/
  | replyEntryGrant
  /-- PENDING_COMMAND_QUEUED (R61). -/
  | pendingCommandQueued
  /-- POSITION (R6 to R11). -/
  | position
  /-- LOAD (R78). -/
  | load
  /-- DONE (R63). -/
  | done
  /-- BAY_REPORT (R138). -/
  | bayReport
  /-- GOTO (R55). -/
  | goto
  /-- PICK (R55). -/
  | pick
  /-- PLACE (R55). -/
  | place
  /-- PARK (R55). -/
  | park
  /-- HALT (R65). -/
  | halt
  /-- BROADCAST_HALT (R65, R171). -/
  | broadcastHalt
  /-- STALE_EXPIRY (R12) of a crane. -/
  | staleExpiry (crane : Fin 4)
  /-- HOLD_EXPIRY (R42) of a zone. -/
  | holdExpiry (zone : Fin 32)
  /-- RESERVATION_EXPIRY (R114) of a slot. -/
  | reservationExpiry (slot : Nat)
  /-- WEIGH_EXPIRY (R87) of a crane's hook. -/
  | weighExpiry (crane : Fin 4)
  /-- RE_ARM_EXPIRY (R148) of a bay. -/
  | reArmExpiry (bay : Fin 6)
  /-- FLASH_TIMER_EXPIRY (R157) of a bay. -/
  | flashTimerExpiry (bay : Fin 6)
  /-- DWELL_END (R139). -/
  | dwellEnd
  /-- FILTER_SAMPLE (R71): the levels on the discrete inputs. -/
  | filterSample (levels : Samples)
  /-- INPUT_LEVEL_ACCEPTED (R71) of the input with this line number (R70). -/
  | inputLevelAccepted (line : Nat)
  /-- CHECK_DELAY_END (R72) of the output whose readback has this line number (R70). -/
  | checkDelayEnd (line : Nat)
  /-- ALLOCATE (R121). -/
  | allocate
  /-- ALLOCATION_SEARCH (R125). -/
  | allocationSearch
  /-- ALLOCATION_SEARCH_COMPLETE (R131). -/
  | allocationSearchComplete
  /-- SLOT_MAP_REQUEST_SERVED (R118). -/
  | slotMapRequestServed
  /-- TABLE_WRITE_CRANE (R2). -/
  | tableWriteCrane
  /-- TABLE_WRITE_ZONE (R23). -/
  | tableWriteZone
  /-- TABLE_WRITE_ENTRY (R51). -/
  | tableWriteEntry
  /-- TABLE_WRITE_BLOCK (R97). -/
  | tableWriteBlock
  /-- TABLE_WRITE_SLOT_GEOMETRY (R99). -/
  | tableWriteSlotGeometry
  /-- TABLE_WRITE_GROUP_MAP (R127). -/
  | tableWriteGroupMap
  /-- TABLE_WRITE_CALIBRATION (R75). -/
  | tableWriteCalibration
  /-- TABLE_WRITE_BAY (R135). -/
  | tableWriteBay
  /-- TABLE_WRITE_PARAMETERS (R178). -/
  | tableWriteParameters
  /-- TABLE_READ (R179). -/
  | tableRead
  /-- QUERY_CRANE (R180). -/
  | queryCrane
  /-- QUERY_ZONE (R180). -/
  | queryZone
  /-- QUERY_SLOT (R180). -/
  | querySlot
  /-- QUERY_BLOCK_SUMS (R98). -/
  | queryBlockSums
  /-- QUERY_HOOK (R94). -/
  | queryHook
  /-- QUERY_BAY (R158). -/
  | queryBay
  /-- QUERY_LINK (R174). -/
  | queryLink
  /-- QUERY_PART (R180). -/
  | queryPart
  /-- QUERY_SUMMARY (R181). -/
  | querySummary
  /-- RESERVE (R113). -/
  | reserve
  /-- UNRESERVE (R115). -/
  | unreserve
  /-- SLOT_SET (R116). -/
  | slotSet
  /-- PLAN_LOAD (R140). -/
  | planLoad
  /-- PLAN_CLEAR (R141). -/
  | planClear
  /-- BAY_ACK (R149). -/
  | bayAck
  /-- HOLD (R40). -/
  | hold
  /-- UNHOLD (R41). -/
  | unhold
  /-- BLOCK (R45). -/
  | block
  /-- UNBLOCK (R46). -/
  | unblock
  /-- STOP_RELEASE (R68). -/
  | stopRelease
  /-- MODE_RUN (R188). -/
  | modeRun
  /-- MODE_MAINTENANCE (R190). -/
  | modeMaintenance
  /-- RESTART (R191). -/
  | restart
  /-- FRAME_LENGTH_ABOVE_60 (R161): a length byte that arrives on a port's line. -/
  | frameLengthAbove60 (port : PortId) (length : Byte)
deriving DecidableEq, Repr

end Sys2Proof
end

