-- ==== Sys2Proof/WellFormed.lean ====
section
/-! DEFINITION. The commands the spec admits: every operand in the range its rule gives it. -/

namespace Sys2Proof

/-- The line numbers of the readbacks (R70): stop 0 to 3, red 8 to 13, green 16 to 21. -/
def readbackLine (n : Nat) : Bool :=
  decide (n < 4) || (decide (8 ≤ n) && decide (n < 14)) || (decide (16 ≤ n) && decide (n < 22))

/-- The line numbers of the driver-safe inputs (R70): 24 to 29. -/
def driverLine (n : Nat) : Bool := decide (24 ≤ n) && decide (n < 30)

/-- A command is well formed when its operands lie in the ranges of their rules: at least one byte on the line (R161), a
slot of the slot table (R99), a line number of R70, a length byte above 60 (R161). Every other operand is in range by its
type. -/
def Instr.wellFormed : Instr → Bool
  | .frameReceived _ line => !line.isEmpty
  | .reservationExpiry slot => decide (slot < 1536)
  | .inputLevelAccepted line => readbackLine line || driverLine line
  | .checkDelayEnd line => readbackLine line
  | .frameLengthAbove60 _ length => decide (60 < length.toNat)
  | .powerOn _ => true
  | .resetLineAsserted => true
  | .resetLineReleased _ => true
  | .interByteGap _ _ => true
  | .supervisorFrameForward => true
  | .craneFrameForward => true
  | .frameSent _ => true
  | .replyEntryGrant => true
  | .pendingCommandQueued => true
  | .position => true
  | .load => true
  | .done => true
  | .bayReport => true
  | .goto => true
  | .pick => true
  | .place => true
  | .park => true
  | .halt => true
  | .broadcastHalt => true
  | .staleExpiry _ => true
  | .holdExpiry _ => true
  | .weighExpiry _ => true
  | .reArmExpiry _ => true
  | .flashTimerExpiry _ => true
  | .dwellEnd => true
  | .filterSample _ => true
  | .allocate => true
  | .allocationSearch => true
  | .allocationSearchComplete => true
  | .slotMapRequestServed => true
  | .tableWriteCrane => true
  | .tableWriteZone => true
  | .tableWriteEntry => true
  | .tableWriteBlock => true
  | .tableWriteSlotGeometry => true
  | .tableWriteGroupMap => true
  | .tableWriteCalibration => true
  | .tableWriteBay => true
  | .tableWriteParameters => true
  | .tableRead => true
  | .queryCrane => true
  | .queryZone => true
  | .querySlot => true
  | .queryBlockSums => true
  | .queryHook => true
  | .queryBay => true
  | .queryLink => true
  | .queryPart => true
  | .querySummary => true
  | .reserve => true
  | .unreserve => true
  | .slotSet => true
  | .planLoad => true
  | .planClear => true
  | .bayAck => true
  | .hold => true
  | .unhold => true
  | .block => true
  | .unblock => true
  | .stopRelease => true
  | .modeRun => true
  | .modeMaintenance => true
  | .restart => true

end Sys2Proof
end

