-- ==== Sys2Proof/Config.lean ====
section
/-! DEFINITION. What the spec fixes as a constant of the part, and the free values it leaves open. -/

namespace Sys2Proof.Config

/-- The permitted x in the verdict of an order that resolved and was then not accepted (R56 states none; log 5), for the
n-th free value drawn. -/
opaque permittedOfRefused : Nat → BitVec 24

/-- Of two requests that became ready together, whether the first of the engine's list is searched first (R125 allows
either; log 10), for the n-th free value drawn. -/
opaque searchFirst : Nat → Bool

/-- Depth of a receive FIFO (R163). -/
def fifoDepth : Nat := 4

/-- Capacity of the crane-port NORMAL queue (R171). -/
def normalCapacity : Nat := 16

/-- Capacity of the supervisor-port TELEMETRY queue (R172). -/
def telemetryCapacity : Nat := 32

/-- Capacity of the supervisor-port REPLY queue (R173). -/
def replyCapacity : Nat := 16

/-- Capacity of the notice queue (R183). -/
def noticeCapacity : Nat := 32

/-- Capacity of the allocation queue (R122). -/
def queueCapacity : Nat := 8

/-- The most payload bytes of a frame (R161). -/
def maxPayload : Nat := 60

/-- The top of an event count (00, Conventions). -/
def countTop : Nat := 65535

/-- The slot table's size (R99). -/
def slotCount : Nat := 1536

end Sys2Proof.Config
end

