-- ==== Sys2Proof/Machine/State.lean ====
section
/-! DEFINITION. Everything the spec gives the part, as plain data, and its value after reset. Each unit of the block
diagram (00) is a structure of its own. -/

namespace Sys2Proof.Machine

/-! ## Names -/

/-- The mode (R187). -/
inductive Mode where
  | startup
  | run
  | maintenance
deriving DecidableEq, Repr

/-- The tracking state of a crane (R5). -/
inductive Tracking where
  | unseen
  | tracked
  | stale
deriving DecidableEq, Repr

/-- The gripper flag (R5): OPEN or CLOSED. -/
inductive Gripper where
  | opened
  | closed
deriving DecidableEq, Repr

/-- The drive state (R5). -/
inductive Drive where
  | ready
  | moving
  | manual
  | fault
deriving DecidableEq, Repr

/-- The class of a claim or of an order (R1, R25, R52). -/
inductive ClaimClass where
  | normal
  | priority
  | rescue
deriving DecidableEq, Repr

/-- The origin of a claim (R25). -/
inductive ClaimOrigin where
  | order
  | giveWay
deriving DecidableEq, Repr

/-- EAST or WEST: the direction of a claim (R28) or of a truck's front (R135). -/
inductive Direction where
  | east
  | west
deriving DecidableEq, Repr

/-- The stop causes, in the order of R66. -/
inductive StopCause where
  | stale
  | ordering
  | intrusion
  | cabArea
  | bayDriver
  | truckLeft
  | startup
deriving DecidableEq, Repr

/-- The weight quality (00, Terms). -/
inductive Quality where
  | good
  | overrange
  | tareSuspect
  | unsettled
deriving DecidableEq, Repr

/-- The reasons of R185, in the order of their codes 1 to 39. -/
inductive Reason where
  | badValue
  | malformed
  | inUse
  | floorLimit
  | slotState
  | buried
  | reservedOther
  | sizeLimit
  | stackSupport
  | stackQuality
  | stackWeight
  | stackDiameter
  | zoneBlocked
  | stackGroup
  | duplicateId
  | weightUnproven
  | craneUntracked
  | restarted
  | wrongMode
  | stopLatched
  | craneManual
  | craneFault
  | badLocation
  | hookState
  | cabArea
  | zoneHeld
  | zoneForbidsLoad
  | bayNotReady
  | bayBusy
  | planOrder
  | coilMismatch
  | axleLimit
  | notTiled
  | ordering
  | overlap
  | noDestination
  | destinationGone
  | outOfTolerance
  | craneRemoved
deriving DecidableEq, Repr

/-- The verdicts of R56, in the order of their codes. -/
inductive VerdictKind where
  | passed
  | clamped
  | held
  | refused
  | busy
  | superseded
  | aborted
  | yielded
deriving DecidableEq, Repr

/-- The answers of R177, in the order of their codes. -/
inductive Answer where
  | ok
  | refused
  | busy
  | wrongMode
  | allocated
  | noSlot
deriving DecidableEq, Repr

/-- The notice kinds of R183, in the order of their codes 1 to 18. -/
inductive NoticeKind where
  | stopSet
  | stopCleared
  | craneState
  | deadlock
  | giveWay
  | holdExpired
  | weighed
  | weightMismatch
  | tareSuspect
  | setDown
  | lostTrack
  | reservationExpired
  | bayState
  | truckMismatch
  | scaleDiscrepancy
  | truckLeftEarly
  | lineFault
  | modeChanged
deriving DecidableEq, Repr

/-- The kinds of the kind table (R167). -/
inductive Kind where
  | goto
  | pick
  | place
  | park
  | halt
  | moveTo
  | liftAt
  | lowerAt
  | stop
  | position
  | load
  | done
  | bayPoll
  | bayReport
  | tableWrite
  | tableRead
  | query
  | allocate
  | reserve
  | unreserve
  | slotSet
  | planLoad
  | planClear
  | bayAck
  | hold
  | unhold
  | block
  | unblock
  | stopRelease
  | mode
  | restart
  | verdict
  | reply
  | notice
deriving DecidableEq, Repr

/-! ## The yard link -/

/-- A good frame: header, payload and the check it came with (R161, R167). -/
structure Frame where
  dest : Byte
  src : Byte
  kind : Byte
  seq : Byte
  payload : List Byte
  check : Check
deriving DecidableEq, Repr

/-- A receiver: hunting for a start mark, or inside a frame with the bytes taken since the mark (R161). -/
inductive Receiver where
  | hunting
  | inFrame (bytes : List Byte)
deriving DecidableEq, Repr

/-- The counts of a port (R174). -/
structure LinkCounts where
  good : Nat
  checkErrors : Nat
  framing : Nat
  overruns : Nat
  refused : Nat
  unclaimed : Nat
  conflicts : Nat
  pollSkips : Nat
  forwardDiscards : Nat
  telemetryDiscards : Nat
  sent : Nat
deriving DecidableEq, Repr

/-- What both ports have: receiver, receive FIFO, frame in transmission and counts. -/
structure Port where
  rx : Receiver
  fifo : List Frame
  tx : Option Frame
  counts : LinkCounts
deriving DecidableEq, Repr

/-- A set of stop causes (R66). -/
structure CauseSet where
  stale : Bool
  ordering : Bool
  intrusion : Bool
  cabArea : Bool
  bayDriver : Bool
  truckLeft : Bool
  startup : Bool
deriving DecidableEq, Repr

/-- A STOP with its cause set, or a HALT with its tag (R170). -/
inductive UrgentBody where
  | stop (causes : CauseSet)
  | halt (tag : Nat)
deriving DecidableEq, Repr

/-- An entry of the URGENT queue: a STOP or HALT for one crane with the sequence it took on entry (R168, R170). -/
structure UrgentEntry where
  crane : Fin 4
  seq : Byte
  body : UrgentBody
deriving DecidableEq, Repr

/-- The five sorts of entries of the NORMAL queue (R171). -/
inductive NormalSort where
  | command (crane : Fin 4)
  | giveWay (crane : Fin 4)
  | poll (bay : Fin 6)
  | transparent
  | broadcastHalt
deriving DecidableEq, Repr

/-- An entry of the NORMAL queue (R171). -/
structure NormalEntry where
  sort : NormalSort
  frame : Frame
deriving DecidableEq, Repr

/-- The producers of the REPLY queue (R173). -/
inductive Producer where
  | gate
  | responder
  | engine
  | notices
deriving DecidableEq, Repr

/-- What the source station of a crane-port frame is (R164): that of a configured crane, of a configured bay's unit, or any other. -/
inductive Sender where
  | crane (c : Fin 4)
  | bay (b : Fin 6)
  | other
deriving DecidableEq, Repr

/-- The link ports and forwarding (08). -/
structure Link where
  sup : Port
  crane : Port
  urgent : List UrgentEntry
  normal : List NormalEntry
  reply : List Frame
  telemetry : List Frame
  /-- The frame sequence counter (R168). -/
  seq : Byte
  /-- The REPLY arbiter's order (R173). -/
  turn : List Producer
  /-- The part's own station (R164). -/
  station : Byte
  /-- What the source of the frame at the head of the crane-port FIFO was when the frame reached the head (R164). -/
  sender : Option Sender
deriving DecidableEq, Repr

/-! ## Parameters -/

/-- The parameter table (R178). -/
structure Params where
  length : Nat
  staleLimit : Nat
  sampleInterval : Nat
  window : Nat
  settleBand : Nat
  engage : Nat
  release : Nat
  tareLimit : Nat
  mismatch : Nat
  weighTimeout : Nat
  reservationTime : Nat
  overflow : Option Nat
  ground : Nat
  mix : Nat
deriving DecidableEq, Repr

/-! ## The crane tracker -/

/-- A crane table entry (R1). -/
structure CraneEntry where
  configured : Bool
  westExt : Nat
  eastExt : Nat
  margin : Nat
  reaction : Nat
  decel : Nat
  vmax : Nat
  yMin : Nat
  yMax : Nat
  zSafe : Nat
  parkX : Nat
  parkY : Nat
  giveWay : Bool
  dflt : ClaimClass
  tong : Nat
  tolerance : Nat
deriving DecidableEq, Repr

/-- An accepted POSITION as the record keeps it, with its arrival time (R5). -/
structure Telegram where
  seq : Byte
  x : Nat
  y : Nat
  z : Nat
  vx : Int
  vy : Int
  gripper : Gripper
  drive : Drive
  tag : Nat
  arrival : Time
deriving DecidableEq, Repr

/-- A stopping envelope with its zone cover and its time of computation (R5). -/
structure Envelope where
  lo : Nat
  hi : Nat
  cover : Option (Nat × Nat)
  time : Time
deriving DecidableEq, Repr

/-- A crane record (R5). -/
structure CraneRecord where
  tracking : Tracking
  last : Option Telegram
  envelope : Option Envelope
  late : Nat
  clamp : Nat
  staleCount : Nat
  malformed : Nat
deriving DecidableEq, Repr

/-- The crane tracker (01). `crossed` at a crane is the mark of the ordering pair it is the western crane of (R13). -/
structure Tracker where
  entries : Vector CraneEntry 4
  records : Vector CraneRecord 4
  crossed : Vector Bool 4
deriving DecidableEq, Repr

/-! ## The zone arbiter -/

/-- A set of bays 0 to 5 (R25, R66). -/
abbrev BaySet := Vector Bool 6

/-- The management part of a hold record (R25). -/
inductive HoldPart where
  | till (expiry : Time)
  | indefinite
deriving DecidableEq, Repr

/-- A claim on a waiter list (R25). -/
structure Waiter where
  crane : Fin 4
  cls : ClaimClass
  origin : ClaimOrigin
deriving DecidableEq, Repr

/-- A zone: its table entry (R23) and its dynamic state (R25). -/
structure Zone where
  defined : Bool
  start : Nat
  cap : Nat
  loaded : Bool
  bay : Option (Fin 6)
  grant : Option (Fin 4)
  blocked : Bool
  hold : Option HoldPart
  bayHold : BaySet
  waiters : List Waiter
deriving DecidableEq, Repr

/-- A grant run g_lo to g_hi (R26). -/
structure Run where
  lo : Nat
  hi : Nat
deriving DecidableEq, Repr

/-- A crane's claim (R27). -/
structure Claim where
  zone : Nat
  cls : ClaimClass
  origin : ClaimOrigin
deriving DecidableEq, Repr

/-- The zone arbiter (02). -/
structure Arbiter where
  zones : Vector Zone 32
  runs : Vector (Option Run) 4
  claims : Vector (Option Claim) 4
deriving DecidableEq, Repr

/-! ## The order gate -/

/-- An entry point (R51). -/
structure EntryPoint where
  defined : Bool
  x : Nat
  y : Nat
  z : Nat
deriving DecidableEq, Repr

/-- An order's location as received (R52). -/
inductive Location where
  | coord (x y : Nat)
  | entry (e : Nat)
  | slot (s : Nat)
  | bayPos (b p : Nat)
deriving DecidableEq, Repr

/-- The coil data of a PICK at ENTRY (R52). -/
structure EntryData where
  id : Option CoilId
  declared : Nat
  diameter : Option Nat
  width : Option Nat
  group : Nat
deriving DecidableEq, Repr

/-- A point of the store: x, y and z. -/
structure Point where
  x : Nat
  y : Nat
  z : Nat
deriving DecidableEq, Repr

/-- The kinds of orders an order record holds (R54). -/
inductive OrderKind where
  | goto
  | pick
  | place
  | park
deriving DecidableEq, Repr

/-- The states of an order (R54). -/
inductive OrderState where
  | waiting
  | partly
  | forwarded
  | ended
deriving DecidableEq, Repr

/-- The crane command verbs of orders (R62). -/
inductive Verb where
  | moveTo
  | liftAt
  | lowerAt
deriving DecidableEq, Repr

/-- A prepared crane command, less its speed and sequence, which it takes when it is queued (R61, R62). -/
structure Command where
  verb : Verb
  x : Nat
  y : Nat
  z : Nat
  travel : Nat
deriving DecidableEq, Repr

/-- An order record (R54). -/
structure Order where
  kind : OrderKind
  tag : Nat
  loc : Option Location
  data : Option EntryData
  target : Point
  permitted : Nat
  cls : ClaimClass
  speed : Nat
  state : OrderState
  short : Option Reason
  lastSeq : Option Byte
  lastDone : Bool
  pending : Option Command
deriving DecidableEq, Repr

/-- A stop latch: its causes, and the bays of the cause BAY_DRIVER (R66). -/
structure Latch where
  causes : CauseSet
  bays : BaySet
deriving DecidableEq, Repr

/-- A verdict as the gate keeps it (R56). -/
structure Verdict where
  crane : Fin 4
  tag : Nat
  kind : VerdictKind
  reason : Option Reason
  target : Nat
  permitted : Nat
deriving DecidableEq, Repr

/-- The order gate (03), less the discrete lines. -/
structure Gate where
  entryPoints : Vector EntryPoint 4
  orders : Vector (Option Order) 4
  latches : Vector Latch 4
  /-- The verdict list (R56). -/
  verdicts : List Verdict
  /-- The cranes whose orders have a pending command, longest wait first (R61). -/
  pendingTurn : List (Fin 4)
deriving DecidableEq, Repr

/-! ## Discrete lines and the input filter -/

/-- An accepted level (R71). -/
inductive Level where
  | unknown
  | active
  | inactive
deriving DecidableEq, Repr

/-- The filter of one input (R71). -/
structure InputFilter where
  accepted : Level
  last : Bool
  run : Nat
deriving DecidableEq, Repr

/-- An output with its readback (R72): commanded level, fault mark, samples taken of a running check delay. -/
structure OutLine where
  commanded : Bool
  fault : Bool
  delay : Option Nat
  input : InputFilter
deriving DecidableEq, Repr

/-- The discrete lines (R70). -/
structure Lines where
  stop : Vector OutLine 4
  red : Vector OutLine 6
  green : Vector OutLine 6
  driver : Vector InputFilter 6
  nextSample : Time
deriving DecidableEq, Repr

/-! ## The hoist weigher -/

/-- A point of a calibration table (R75). -/
structure CalPoint where
  count : Int
  kg : Nat
deriving DecidableEq, Repr

/-- A coil record, less the placed time of a slot (R83, R100). -/
structure Coil where
  id : Option CoilId
  weight : Nat
  quality : Quality
  diameter : Option Nat
  width : Option Nat
  group : Nat
deriving DecidableEq, Repr

/-- The hook states (R83). -/
inductive HookState where
  | empty
  | gripped
  | lifting
  | weighed
deriving DecidableEq, Repr

/-- Where the source or the entry data of a lift stand (R83). -/
inductive SourcePlace where
  | slot (s : Nat)
  | entry (e : Nat) (data : EntryData)
deriving DecidableEq, Repr

/-- A hook's source, with the tag of the order that set it (R83). -/
structure Source where
  place : SourcePlace
  tag : Nat
deriving DecidableEq, Repr

/-- Where a set-down is to go (R83). -/
inductive DestPlace where
  | slot (s : Nat)
  | bayPos (b : Fin 6) (p : Nat)
deriving DecidableEq, Repr

/-- A hook's destination, with the target x and y of its crane command (R83). -/
structure Destination where
  place : DestPlace
  x : Nat
  y : Nat
deriving DecidableEq, Repr

/-- The window accumulator (R79). -/
structure Accumulator where
  number : Nat
  sum : Int
  smallest : Int
  largest : Int
deriving DecidableEq, Repr

/-- The weights of a window, present when the crane has an active table (R79). -/
structure WindowWeights where
  gross : Nat
  tare : Nat
  net : Nat
  overrange : Bool
  quality : Quality
deriving DecidableEq, Repr

/-- A window result (R79). -/
structure WindowResult where
  time : Time
  mean : Int
  spread : Int
  quiet : Bool
  weights : Option WindowWeights
deriving DecidableEq, Repr

/-- The lift start and weigh expiry of a LIFTING hook (R83). -/
structure Lift where
  start : Time
  expiry : Time
deriving DecidableEq, Repr

/-- A hook record with its window accumulator, LOAD reference and calibration tables (R75, R78, R79, R83). -/
structure Hook where
  state : HookState
  gripper : Gripper
  coil : Option Coil
  source : Option Source
  dest : Option Destination
  quiet : Nat
  lift : Option Lift
  tare : Option Nat
  suspect : Bool
  lastWindow : Option WindowResult
  lost : Option Coil
  late : Nat
  malformed : Nat
  unsettled : Nat
  lostCount : Nat
  acc : Accumulator
  loadSeq : Option Byte
  active : Option (List CalPoint)
  staged : Option (List CalPoint)
deriving DecidableEq, Repr

/-! ## The slot map -/

/-- A block table entry (R97). -/
structure Block where
  defined : Bool
  limit : Nat
  cost : Nat
  overhang : Nat
deriving DecidableEq, Repr

/-- A slot's tier, with the two supports of tier 2 (R99). -/
inductive Tier where
  | floor
  | upper (a b : Nat)
deriving DecidableEq, Repr

/-- A slot's geometry (R99). -/
structure Geometry where
  block : Fin 8
  row : Nat
  tier : Tier
  x : Nat
  y : Nat
  z : Nat
  maxDiameter : Nat
  maxWidth : Nat
deriving DecidableEq, Repr

/-- A reservation record (R100). -/
structure Reservation where
  number : Nat
  id : Option CoilId
  weight : Nat
  diameter : Option Nat
  width : Option Nat
  group : Nat
  expiry : Time
  lapsed : Bool
deriving DecidableEq, Repr

/-- A slot's contents, with the records of its state (R100). -/
inductive Contents where
  | free
  | reserved (r : Reservation)
  | incoming (r : Reservation) (crane : Fin 4) (weight : Nat)
  | occupied (coil : Coil) (placed : Time)
  | outgoing (coil : Coil) (placed : Time) (crane : Fin 4)
  | blocked
deriving DecidableEq, Repr

/-- A defined slot (R99, R100). -/
structure Slot where
  geo : Geometry
  contents : Contents
deriving DecidableEq, Repr

/-- A request that waits at the slot map (R118): a search, a management frame, an order frame for a crane, or an expiry. -/
inductive SlotTask where
  | search
  | management (f : Frame)
  | order (crane : Fin 4) (f : Frame)
  | expiry (slot : Nat)
deriving DecidableEq, Repr

/-- The slot map (05). `slots` lists the defined slots, indices strictly rising. -/
structure SlotMap where
  blocks : Vector Block 8
  slots : List (Nat × Slot)
  counter : Nat
  requests : List SlotTask
deriving DecidableEq, Repr

/-! ## The allocation engine -/

/-- The source x of a request (R121). -/
inductive SourceX where
  | given (x : Nat)
  | fromCrane
deriving DecidableEq, Repr

/-- An ALLOCATE request (R121), with the sequence of its frame and its time of arrival. -/
structure Request where
  frameSeq : Byte
  tag : Nat
  coil : CoilId
  weight : Option Nat
  diameter : Option Nat
  width : Option Nat
  group : Nat
  source : SourceX
  crane : Option (Fin 4)
  mask : Byte
  groundOnly : Bool
  since : Time
deriving DecidableEq, Repr

/-- A deferred request: parked, or ready with the weight, quality and x of its ready time (R123, R124). -/
inductive DeferredState where
  | parked
  | ready (weight : Nat) (quality : Quality) (x : Nat) (time : Time)
deriving DecidableEq, Repr

/-- A deferred entry's request (R123). -/
structure Deferred where
  req : Request
  state : DeferredState
deriving DecidableEq, Repr

/-- Where the request being searched stands (R125). -/
inductive SearchOrigin where
  | queue
  | deferred (crane : Fin 4)
deriving DecidableEq, Repr

/-- The search being served, with the values it started with (R125, R127). -/
structure Search where
  origin : SearchOrigin
  routing : Byte
  overflow : Option Nat
  ground : Nat
  mix : Nat
deriving DecidableEq, Repr

/-- The body of a REPLY (R167, R177). -/
structure ReplyBody where
  kind : Byte
  seq : Byte
  answer : Answer
  reason : Option Reason
  data : List Byte
deriving DecidableEq, Repr

/-- The allocation engine (06). -/
structure Engine where
  routing : Vector Byte 8
  queue : List Request
  deferred : Vector (Option Deferred) 4
  answers : List ReplyBody
  search : Option Search
deriving DecidableEq, Repr

/-! ## The bay controller -/

/-- A bay table entry (R135). -/
structure BayEntry where
  configured : Bool
  station : Nat
  mask : ZoneMask
  axle : Nat
  front : Direction
  yLo : Nat
  yHi : Nat
  cab : Nat
  scale : Bool
  scaleTolerance : Nat
  allowance : Nat
  settle : Nat
  rearm : Nat
  flashOn : Nat
  flashOff : Nat
deriving DecidableEq, Repr

/-- The bay states (R144), in the order of the codes of BAY_POLL (R167). -/
inductive BayState where
  | empty
  | arrived
  | ready
  | loading
  | paused
  | complete
deriving DecidableEq, Repr

/-- A pause cause set (R144). -/
structure PauseSet where
  driver : Bool
  discrepancy : Bool
  stale : Bool
deriving DecidableEq, Repr

/-- A taken report with its time of arrival (R138). -/
structure Report where
  present : Bool
  inPosition : Bool
  truck : Option CoilId
  gross : Nat
  stable : Bool
  time : Time
deriving DecidableEq, Repr

/-- The state of a placement (R140, R152, R153). -/
inductive PlacementState where
  | planned
  | incoming (crane : Fin 4)
  | placed (coil : Coil)
deriving DecidableEq, Repr

/-- A placement (R140). -/
structure Placement where
  offset : Nat
  expected : Option CoilId
  state : PlacementState
deriving DecidableEq, Repr

/-- A load plan with its running values (R140). -/
structure Plan where
  truck : Option CoilId
  tareFront : Nat
  tareRear : Nat
  wheelbase : Nat
  bed : Nat
  frontMax : Nat
  rearMax : Nat
  grossMax : Nat
  share : Nat
  strict : Bool
  placements : List Placement
  front : Int
  rear : Int
  placedCount : Nat
  scalePending : Bool
deriving DecidableEq, Repr

/-- A bay record (R158). -/
structure BayRecord where
  state : BayState
  causes : PauseSet
  pollStale : Bool
  misses : Nat
  totalMisses : Nat
  malformed : Nat
  late : Nat
  last : Option Report
  plan : Option Plan
  noted : Option CoilId
  rearmAt : Option Time
  flashAt : Option Time
deriving DecidableEq, Repr

/-- The poll scan (R137, R138). -/
structure Scan where
  bay : Fin 6
  dwellEnd : Time
  taken : Bool
  skipped : Bool
deriving DecidableEq, Repr

/-- The bay controller (07). -/
structure Bays where
  entries : Vector BayEntry 6
  records : Vector BayRecord 6
  scan : Option Scan
deriving DecidableEq, Repr

/-! ## The management responder -/

/-- A notice record (R183). -/
structure Notice where
  kind : NoticeKind
  time : Time
  subject : Nat
  v1 : Nat
  v2 : Nat
  v3 : Nat
deriving DecidableEq, Repr

/-- The management responder (09, 10). -/
structure Mgmt where
  mode : Mode
  clock : Time
  notices : List Notice
  lost : Nat
  held : Option Frame
  reply : Option ReplyBody
deriving DecidableEq, Repr

/-! ## The whole part -/

/-- The part: its nine units and the reset line. -/
structure Part where
  link : Link
  params : Params
  tracker : Tracker
  arbiter : Arbiter
  gate : Gate
  lines : Lines
  hooks : Vector Hook 4
  slots : SlotMap
  engine : Engine
  bays : Bays
  mgmt : Mgmt
  /-- The reset line is active (R192). -/
  inReset : Bool
  /-- The model's own: how many free values have been drawn (log 5). -/
  free : Nat
deriving DecidableEq, Repr

/-- The state: the part, and the queue of the commands that wait, first in, first out (log 1). -/
structure State where
  part : Part
  pending : List Instr
deriving DecidableEq, Repr

/-- The part stops with no fault: the spec answers every error with a reply, a verdict, a notice, a count or a stop cause. -/
inductive Fault where
deriving DecidableEq, Repr

/-- Why a command has no meaning. -/
inductive Refusal where
  /-- Raised by `exec` alone, for a command that has no meaning yet; safe. No arm raises it. -/
  | notModelled (mnemonic : String)
deriving DecidableEq, Repr

/-! ## Values after power-on -/

/-- R174, R175. -/
def LinkCounts.zero : LinkCounts := ⟨0, 0, 0, 0, 0, 0, 0, 0, 0, 0, 0⟩

/-- R175. -/
def Port.reset : Port := ⟨.hunting, [], none, LinkCounts.zero⟩

/-- R173, R175. -/
def Link.reset (station : Byte) : Link :=
  { sup := Port.reset, crane := Port.reset, urgent := [], normal := [], reply := [], telemetry := [], seq := 0,
    turn := [.gate, .responder, .engine, .notices], station := station, sender := none }

/-- R4, R71, R77, R112, R127. -/
def Params.reset : Params :=
  { length := 262144, staleLimit := 200, sampleInterval := 5, window := 16, settleBand := 200, engage := 500,
    release := 300, tareLimit := 400, mismatch := 300, weighTimeout := 20, reservationTime := 900, overflow := none,
    ground := 0, mix := 0 }

/-- R22. -/
def CraneEntry.reset : CraneEntry := ⟨false, 0, 0, 0, 0, 0, 0, 0, 0, 0, 0, 0, false, .normal, 0, 0⟩

/-- R22. -/
def CraneRecord.reset : CraneRecord := ⟨.unseen, none, none, 0, 0, 0, 0⟩

/-- R22. -/
def Tracker.reset : Tracker :=
  ⟨Vector.replicate 4 CraneEntry.reset, Vector.replicate 4 CraneRecord.reset, Vector.replicate 4 false⟩

/-- R25. -/
def BaySet.none : BaySet := Vector.replicate 6 false

/-- R49; also the dynamic state of an entry that becomes defined (R23). -/
def Zone.reset : Zone := ⟨false, 0, 0, false, .none, .none, false, .none, BaySet.none, []⟩

/-- R49. -/
def Arbiter.reset : Arbiter := ⟨Vector.replicate 32 Zone.reset, Vector.replicate 4 none, Vector.replicate 4 none⟩

/-- The empty cause set (R66). -/
def CauseSet.none : CauseSet := ⟨false, false, false, false, false, false, false⟩

/-- R73. -/
def Latch.reset : Latch := ⟨CauseSet.none, BaySet.none⟩

/-- R51, R73. -/
def Gate.reset : Gate :=
  { entryPoints := Vector.replicate 4 ⟨false, 0, 0, 0⟩, orders := Vector.replicate 4 none,
    latches := Vector.replicate 4 Latch.reset, verdicts := [], pendingTurn := [] }

/-- R71; the last sampled level is log 4. -/
def InputFilter.reset : InputFilter := ⟨.unknown, false, 0⟩

/-- R72. -/
def OutLine.reset : OutLine := ⟨false, false, none, InputFilter.reset⟩

/-- R71, R72; the first sample is log 4. -/
def Lines.reset : Lines :=
  ⟨Vector.replicate 4 OutLine.reset, Vector.replicate 6 OutLine.reset, Vector.replicate 6 OutLine.reset,
    Vector.replicate 6 InputFilter.reset, 5⟩

/-- An empty window accumulator (R79). -/
def Accumulator.reset : Accumulator := ⟨0, 0, 0, 0⟩

/-- R95. -/
def Hook.reset : Hook :=
  { state := .empty, gripper := .opened, coil := none, source := none, dest := none, quiet := 0, lift := none,
    tare := none, suspect := false, lastWindow := none, lost := none, late := 0, malformed := 0, unsettled := 0,
    lostCount := 0, acc := Accumulator.reset, loadSeq := none, active := none, staged := none }

/-- R119. -/
def SlotMap.reset : SlotMap := ⟨Vector.replicate 8 ⟨false, 0, 0, 0⟩, [], 1, []⟩

/-- R134. -/
def Engine.reset : Engine := ⟨Vector.replicate 8 0, [], Vector.replicate 4 none, [], none⟩

/-- R135, R159: the entry of a bay after power-on. -/
def BayEntry.reset (bay : Nat) : BayEntry :=
  { configured := false, station := 16 + bay, mask := 0, axle := 0, front := .east, yLo := 0, yHi := 0, cab := 0,
    scale := false, scaleTolerance := 400, allowance := 20, settle := 50, rearm := 3000, flashOn := 500,
    flashOff := 500 }

/-- The empty pause cause set (R144). -/
def PauseSet.none : PauseSet := ⟨false, false, false⟩

/-- R159. -/
def BayRecord.reset : BayRecord :=
  { state := .empty, causes := PauseSet.none, pollStale := false, misses := 0, totalMisses := 0, malformed := 0,
    late := 0, last := none, plan := none, noted := none, rearmAt := none, flashAt := none }

/-- R159. -/
def Bays.reset : Bays :=
  ⟨Vector.ofFn fun b => BayEntry.reset b.val, Vector.replicate 6 BayRecord.reset, none⟩

/-- R186, R187. -/
def Mgmt.reset : Mgmt := ⟨.startup, 0, [], 0, none, none⟩

/-- Every unit at its power-on value (R192), with the part's own station. -/
def Part.reset (station : Byte) : Part :=
  { link := Link.reset station, params := Params.reset, tracker := Tracker.reset, arbiter := Arbiter.reset,
    gate := Gate.reset, lines := Lines.reset, hooks := Vector.replicate 4 Hook.reset, slots := SlotMap.reset,
    engine := Engine.reset, bays := Bays.reset, mgmt := Mgmt.reset, inReset := false, free := 0 }

/-- The machine right after reset: every unit at its power-on value; the station is that of straps 0 (log 3). -/
def State.reset : State := ⟨Part.reset 24, []⟩

end Sys2Proof.Machine
end

