-- ==== Sys2Proof/Machine/Flags.lean ====
section
/-! DEFINITION. Sets of causes, flags bytes and the codes of R52, R66, R167, R185 and R187. -/

namespace Sys2Proof.Machine

/-! ## Cause sets -/

/-- Whether a cause is in the set (R66). -/
def CauseSet.has (s : CauseSet) : StopCause → Bool
  | .stale => s.stale
  | .ordering => s.ordering
  | .intrusion => s.intrusion
  | .cabArea => s.cabArea
  | .bayDriver => s.bayDriver
  | .truckLeft => s.truckLeft
  | .startup => s.startup

/-- The set with one cause present or absent. -/
def CauseSet.put (s : CauseSet) (c : StopCause) (on : Bool) : CauseSet :=
  match c with
  | .stale => { s with stale := on }
  | .ordering => { s with ordering := on }
  | .intrusion => { s with intrusion := on }
  | .cabArea => { s with cabArea := on }
  | .bayDriver => { s with bayDriver := on }
  | .truckLeft => { s with truckLeft := on }
  | .startup => { s with startup := on }

/-- Whether the set holds at least one cause (R67). -/
def CauseSet.any (s : CauseSet) : Bool :=
  s.stale || s.ordering || s.intrusion || s.cabArea || s.bayDriver || s.truckLeft || s.startup

/-- A bit's weight: 2 to the place when the bit is set. -/
def bit (place : Nat) (b : Bool) : Nat := if b then 2 ^ place else 0

/-- The cause flags of the STOP frame (R167). -/
def CauseSet.flags (s : CauseSet) : Nat :=
  bit 0 s.stale + bit 1 s.ordering + bit 2 s.intrusion + bit 3 s.cabArea + bit 4 s.bayDriver + bit 5 s.truckLeft
    + bit 6 s.startup

/-- A cause's bit number in the cause flags (R167, R185). -/
def StopCause.code : StopCause → Nat
  | .stale => 0
  | .ordering => 1
  | .intrusion => 2
  | .cabArea => 3
  | .bayDriver => 4
  | .truckLeft => 5
  | .startup => 6

/-- The bay set with one bay present or absent (R43, R66). -/
def BaySet.put (s : BaySet) (b : Fin 6) (on : Bool) : BaySet := s.set b on

/-- Whether the bay set holds a bay. -/
def BaySet.any (s : BaySet) : Bool := s[0] || s[1] || s[2] || s[3] || s[4] || s[5]

/-- A bay set as flags, bay b at bit b. -/
def BaySet.flags (s : BaySet) : Nat :=
  bit 0 s[0] + bit 1 s[1] + bit 2 s[2] + bit 3 s[3] + bit 4 s[4] + bit 5 s[5]

/-- Whether the pause cause set is not empty (R144). -/
def PauseSet.any (s : PauseSet) : Bool := s.driver || s.discrepancy || s.stale

/-- The pause cause flags of the BAY_POLL frame (R167). -/
def PauseSet.flags (s : PauseSet) : Nat := bit 0 s.driver + bit 1 s.discrepancy + bit 2 s.stale

/-! ## Codes -/

/-- R187. -/
def Mode.code : Mode → Nat
  | .startup => 0
  | .run => 1
  | .maintenance => 2

/-- UNSEEN 0 and STALE 2 as R185 gives them; TRACKED 1 between them (log 8). -/
def Tracking.code : Tracking → Nat
  | .unseen => 0
  | .tracked => 1
  | .stale => 2

/-- R167. -/
def Gripper.code : Gripper → Nat
  | .opened => 0
  | .closed => 1

/-- R167. -/
def Drive.code : Drive → Nat
  | .ready => 0
  | .moving => 1
  | .manual => 2
  | .fault => 3

/-- The class codes of orders (R167); the crane table takes them too (log 7). -/
def ClaimClass.code : ClaimClass → Nat
  | .normal => 1
  | .priority => 2
  | .rescue => 3

/-- RESCUE above PRIORITY above NORMAL (R30). -/
def ClaimClass.rank : ClaimClass → Nat
  | .normal => 0
  | .priority => 1
  | .rescue => 2

/-- R185. -/
def Quality.code : Quality → Nat
  | .good => 0
  | .overrange => 1
  | .tareSuspect => 2
  | .unsettled => 3

/-- R167. -/
def BayState.code : BayState → Nat
  | .empty => 0
  | .arrived => 1
  | .ready => 2
  | .loading => 3
  | .paused => 4
  | .complete => 5

/-- R185. -/
def VerdictKind.code : VerdictKind → Nat
  | .passed => 0
  | .clamped => 1
  | .held => 2
  | .refused => 3
  | .busy => 4
  | .superseded => 5
  | .aborted => 6
  | .yielded => 7

/-- R185. -/
def Answer.code : Answer → Nat
  | .ok => 0
  | .refused => 1
  | .busy => 2
  | .wrongMode => 3
  | .allocated => 4
  | .noSlot => 5

/-- R185. -/
def Reason.code : Reason → Nat
  | .badValue => 1
  | .malformed => 2
  | .inUse => 3
  | .floorLimit => 4
  | .slotState => 5
  | .buried => 6
  | .reservedOther => 7
  | .sizeLimit => 8
  | .stackSupport => 9
  | .stackQuality => 10
  | .stackWeight => 11
  | .stackDiameter => 12
  | .zoneBlocked => 13
  | .stackGroup => 14
  | .duplicateId => 15
  | .weightUnproven => 16
  | .craneUntracked => 17
  | .restarted => 18
  | .wrongMode => 19
  | .stopLatched => 20
  | .craneManual => 21
  | .craneFault => 22
  | .badLocation => 23
  | .hookState => 24
  | .cabArea => 25
  | .zoneHeld => 26
  | .zoneForbidsLoad => 27
  | .bayNotReady => 28
  | .bayBusy => 29
  | .planOrder => 30
  | .coilMismatch => 31
  | .axleLimit => 32
  | .notTiled => 33
  | .ordering => 34
  | .overlap => 35
  | .noDestination => 36
  | .destinationGone => 37
  | .outOfTolerance => 38
  | .craneRemoved => 39

/-- "A reason field of 0 means no reason" (R185). -/
def reasonCode : Option Reason → Nat
  | none => 0
  | some r => r.code

/-- R183. -/
def NoticeKind.code : NoticeKind → Nat
  | .stopSet => 1
  | .stopCleared => 2
  | .craneState => 3
  | .deadlock => 4
  | .giveWay => 5
  | .holdExpired => 6
  | .weighed => 7
  | .weightMismatch => 8
  | .tareSuspect => 9
  | .setDown => 10
  | .lostTrack => 11
  | .reservationExpired => 12
  | .bayState => 13
  | .truckMismatch => 14
  | .scaleDiscrepancy => 15
  | .truckLeftEarly => 16
  | .lineFault => 17
  | .modeChanged => 18

/-- R167. -/
def Kind.code : Kind → Byte
  | .goto => 0x20
  | .pick => 0x21
  | .place => 0x22
  | .park => 0x23
  | .halt => 0x24
  | .moveTo => 0x30
  | .liftAt => 0x31
  | .lowerAt => 0x32
  | .stop => 0x34
  | .position => 0x40
  | .load => 0x41
  | .done => 0x42
  | .bayPoll => 0x50
  | .bayReport => 0x51
  | .tableWrite => 0x60
  | .tableRead => 0x61
  | .query => 0x62
  | .allocate => 0x63
  | .reserve => 0x64
  | .unreserve => 0x65
  | .slotSet => 0x66
  | .planLoad => 0x67
  | .planClear => 0x68
  | .bayAck => 0x69
  | .hold => 0x6A
  | .unhold => 0x6B
  | .block => 0x6C
  | .unblock => 0x6D
  | .stopRelease => 0x6E
  | .mode => 0x6F
  | .restart => 0x70
  | .verdict => 0x78
  | .reply => 0x79
  | .notice => 0x7A

/-- The kinds of the kind table, in its order (R167). -/
def Kind.table : List Kind :=
  [.goto, .pick, .place, .park, .halt, .moveTo, .liftAt, .lowerAt, .stop, .position, .load, .done, .bayPoll, .bayReport,
    .tableWrite, .tableRead, .query, .allocate, .reserve, .unreserve, .slotSet, .planLoad, .planClear, .bayAck, .hold,
    .unhold, .block, .unblock, .stopRelease, .mode, .restart, .verdict, .reply, .notice]

/-- The kind a code names; none for an unknown kind (R164). -/
def kindOf (b : Byte) : Option Kind := Kind.table.find? fun k => k.code == b

/-- The order kinds (R164). -/
def Kind.isOrder : Kind → Bool
  | .goto => true
  | .pick => true
  | .place => true
  | .park => true
  | .halt => true
  | _ => false

/-- The management kinds (R164). -/
def Kind.isManagement : Kind → Bool
  | .tableWrite => true
  | .tableRead => true
  | .query => true
  | .allocate => true
  | .reserve => true
  | .unreserve => true
  | .slotSet => true
  | .planLoad => true
  | .planClear => true
  | .bayAck => true
  | .hold => true
  | .unhold => true
  | .block => true
  | .unblock => true
  | .stopRelease => true
  | .mode => true
  | .restart => true
  | _ => false

/-- The level codes of LINE_FAULT (R185). -/
def Level.code : Level → Nat
  | .inactive => 0
  | .active => 1
  | .unknown => 2

/-- A level as an accepted level. -/
def Level.of (b : Bool) : Level := if b then .active else .inactive

end Sys2Proof.Machine
end

