-- ==== Sys2Proof/Machine/Operands.lean ====
section
/-! DEFINITION. The operand forms of the yard link: fields of payloads, low byte first, and the payload layouts of R167 in
both directions. The layouts of management frames are those of log 7. -/

namespace Sys2Proof.Machine

/-! ## Fields -/

/-- A number as `k` bytes, low byte first (R167). -/
def le : Nat → Nat → List Byte
  | 0, _ => []
  | k + 1, v => BitVec.ofNat 8 v :: le k (v / 256)

/-- The number that bytes spell, low byte first (R167). -/
def leNat : List Byte → Nat
  | [] => 0
  | b :: bs => b.toNat + 256 * leNat bs

/-- The field of `len` bytes at place `off` of a payload. -/
def field (p : List Byte) (off len : Nat) : Nat := leNat ((p.drop off).take len)

/-- A signed field of `len` bytes in two's complement (R167). -/
def fieldInt (p : List Byte) (off len : Nat) : Int :=
  let v := field p off len
  if v < 2 ^ (8 * len - 1) then (v : Int) else (v : Int) - 2 ^ (8 * len)

/-- A signed number as `k` bytes in two's complement (R167). -/
def leInt (k : Nat) (v : Int) : List Byte := le k (v % 2 ^ (8 * k)).toNat

/-- Bit `n` of the flags byte at place `off` (R167). -/
def flag (p : List Byte) (off n : Nat) : Bool := (field p off 1).testBit n

/-- A field that is present when its flag is set; a field whose flag is clear is ignored (R167). -/
def optField (present : Bool) (p : List Byte) (off len : Nat) : Option Nat :=
  if present then some (field p off len) else none

/-- A 32-bit id that is present when its flag is set. -/
def optId (present : Bool) (p : List Byte) (off : Nat) : Option CoilId :=
  if present then some (BitVec.ofNat 32 (field p off 4)) else none

/-- A time as four bytes. -/
def leTime (t : Time) : List Byte := le 4 t.toNat

/-- An id as four bytes, 0 when absent. -/
def leId (id : Option CoilId) : List Byte := le 4 (id.elim 0 BitVec.toNat)

/-! ## Crane telegrams and bay reports (R167) -/

/-- A POSITION payload as received. -/
structure RawPosition where
  x : Nat
  y : Nat
  z : Nat
  vx : Int
  vy : Int
  gripper : Nat
  drive : Nat
  tag : Nat
deriving DecidableEq, Repr

/-- R167: the POSITION payload, 15 bytes. -/
def readPosition (p : List Byte) : Option RawPosition :=
  if p.length = 15 then
    some ⟨field p 0 3, field p 3 2, field p 5 2, fieldInt p 7 2, fieldInt p 9 2, field p 11 1, field p 12 1, field p 13 2⟩
  else none

/-- The samples of a LOAD payload from a place on. -/
def readSamples (p : List Byte) : Nat → Nat → List Int
  | 0, _ => []
  | n + 1, off => fieldInt p off 3 :: readSamples p n (off + 3)

/-- R78, R167: the LOAD payload, a count of 1 to 8 and three bytes per sample. -/
def readLoad (p : List Byte) : Option (List Int) :=
  let n := field p 0 1
  if 1 ≤ n ∧ n ≤ 8 ∧ p.length = 1 + 3 * n then some (readSamples p n 1) else none

/-- A DONE payload (R63). -/
structure RawDone where
  tag : Nat
  complete : Bool
  failure : Nat
  seq : Byte
deriving DecidableEq, Repr

/-- R167: the DONE payload, 5 bytes; an outcome code above 1 does not fit the form (log 13). -/
def readDone (p : List Byte) : Option RawDone :=
  if p.length = 5 ∧ field p 2 1 ≤ 1 then
    some ⟨field p 0 2, field p 2 1 == 0, field p 3 1, BitVec.ofNat 8 (field p 4 1)⟩
  else none

/-- R138, R167: the BAY_REPORT payload, 9 bytes; "present no with in position yes is read as present no". -/
def readBayReport (p : List Byte) (now : Time) : Option Report :=
  if p.length = 9 then
    some { present := flag p 0 0, inPosition := flag p 0 0 && flag p 0 1, truck := optId (flag p 0 2) p 1,
           gross := field p 5 4, stable := flag p 0 3, time := now }
  else none

/-! ## Orders (R52, R167) -/

/-- An order frame's content (R52); no class stands for DEFAULT. -/
structure OrderRequest where
  kind : OrderKind
  tag : Nat
  cls : Option ClaimClass
  speed : Nat
  loc : Option Location
  data : Option EntryData
deriving DecidableEq, Repr

/-- The class codes of R167: 0 DEFAULT to 3 RESCUE. -/
def readClass : Nat → Option (Option ClaimClass)
  | 0 => some none
  | 1 => some (some .normal)
  | 2 => some (some .priority)
  | 3 => some (some .rescue)
  | _ => none

/-- The location form at place 5 with the length of form and fields (R167). -/
def readLocation (p : List Byte) : Option (Location × Nat) :=
  match field p 5 1 with
  | 0 => some (.coord (field p 6 3) (field p 9 2), 6)
  | 1 => some (.entry (field p 6 1), 2)
  | 2 => some (.slot (field p 6 2), 3)
  | 3 => some (.bayPos (field p 6 1) (field p 7 1), 3)
  | _ => none

/-- The coil data of a PICK at ENTRY at place 7 (R167). -/
def readEntryData (p : List Byte) : EntryData :=
  { id := optId (flag p 7 0) p 8, declared := field p 12 2, diameter := optField (flag p 7 1) p 14 2,
    width := optField (flag p 7 2) p 16 2, group := field p 18 1 }

/-- The tag of an order frame: that of a payload of at least two bytes, 0 otherwise (R52). -/
def orderTag (p : List Byte) : Nat := if 2 ≤ p.length then field p 0 2 else 0

/-- R52, R167: an order's payload; none is MALFORMED. -/
def readOrder (kind : OrderKind) (p : List Byte) : Option OrderRequest :=
  if p.length < 5 then none else
  match readClass (field p 2 1) with
  | none => none
  | some cls =>
    let base : OrderRequest := ⟨kind, field p 0 2, cls, field p 3 2, none, none⟩
    match kind with
    | .park => if p.length = 5 then some base else none
    | .goto | .place =>
      if p.length < 6 then none else
      match readLocation p with
      | some (loc, n) => if p.length = 5 + n then some { base with loc := some loc } else none
      | none => none
    | .pick =>
      if p.length < 6 then none else
      match readLocation p with
      | some (.entry e, n) =>
        if p.length = 5 + n + 12 then some { base with loc := some (.entry e), data := some (readEntryData p) } else none
      | some (loc, n) => if p.length = 5 + n then some { base with loc := some loc } else none
      | none => none

/-- R167: the HALT payload, the tag alone. -/
def readHalt (p : List Byte) : Option Nat := if p.length = 2 then some (field p 0 2) else none

/-! ## The part's own payloads (R167) -/

/-- MOVE_TO, LIFT_AT and LOWER_AT (R167). -/
def commandPayload (tag : Nat) (c : Command) (speed : Nat) : List Byte :=
  match c.verb with
  | .moveTo => le 2 tag ++ le 3 c.x ++ le 2 c.y ++ le 2 c.z ++ le 2 speed
  | .liftAt | .lowerAt => le 2 tag ++ le 3 c.x ++ le 2 c.y ++ le 2 c.z ++ le 2 c.travel ++ le 2 speed

/-- The frame kind of a verb. -/
def Verb.kind : Verb → Kind
  | .moveTo => .moveTo
  | .liftAt => .liftAt
  | .lowerAt => .lowerAt

/-- BAY_POLL (R167). -/
def pollPayload (bay : Fin 6) (r : BayRecord) : List Byte :=
  le 1 bay.val ++ le 1 r.state.code ++ le 1 r.causes.flags

/-- VERDICT (R167). -/
def Verdict.payload (v : Verdict) : List Byte :=
  le 1 v.crane.val ++ le 2 v.tag ++ le 1 v.kind.code ++ le 1 (reasonCode v.reason) ++ le 3 v.target ++ le 3 v.permitted

/-- REPLY (R167). -/
def ReplyBody.payload (r : ReplyBody) : List Byte :=
  [r.kind, r.seq] ++ le 1 r.answer.code ++ le 1 (reasonCode r.reason) ++ r.data

/-- NOTICE (R167). -/
def Notice.payload (n : Notice) : List Byte :=
  le 1 n.kind.code ++ leTime n.time ++ le 2 n.subject ++ le 4 n.v1 ++ le 4 n.v2 ++ le 4 n.v3

/-! ## Management requests (log 7) -/

/-- The coil fields of RESERVE and SLOT_SET: optional id, weight, optional diameter and width, ship group. -/
structure CoilFields where
  id : Option CoilId
  weight : Nat
  diameter : Option Nat
  width : Option Nat
  group : Nat
deriving DecidableEq, Repr

/-- RESERVE: slot (2); flags (1: id, diameter, width present); id (4); weight (2); diameter (2); width (2); group (1). -/
def readReserve (p : List Byte) : Option (Nat × CoilFields) :=
  if p.length = 14 then
    some (field p 0 2, { id := optId (flag p 2 0) p 3, weight := field p 7 2, diameter := optField (flag p 2 1) p 9 2,
                         width := optField (flag p 2 2) p 11 2, group := field p 13 1 })
  else none

/-- UNRESERVE: slot (2); reservation number (2). -/
def readUnreserve (p : List Byte) : Option (Nat × Nat) :=
  if p.length = 4 then some (field p 0 2, field p 2 2) else none

/-- The quality codes of R185. -/
def readQuality : Nat → Option Quality
  | 0 => some .good
  | 1 => some .overrange
  | 2 => some .tareSuspect
  | 3 => some .unsettled
  | _ => none

/-- The new contents of a SLOT_SET (R116). -/
inductive NewContents where
  | free
  | occupied (coil : Coil)
  | blocked
deriving DecidableEq, Repr

/-- SLOT_SET: slot (2); contents (1: 0 FREE, 1 OCCUPIED, 2 BLOCKED); for OCCUPIED flags (1), id (4), weight (2),
quality (1), diameter (2), width (2), group (1). -/
def readSlotSet (p : List Byte) : Option (Nat × NewContents) :=
  match field p 2 1 with
  | 0 => if p.length = 3 then some (field p 0 2, .free) else none
  | 1 =>
    if p.length = 16 then
      match readQuality (field p 10 1) with
      | some q =>
        some (field p 0 2, .occupied { id := optId (flag p 3 0) p 4, weight := field p 8 2, quality := q,
                                       diameter := optField (flag p 3 1) p 11 2, width := optField (flag p 3 2) p 13 2,
                                       group := field p 15 1 })
      | none => none
    else none
  | 2 => if p.length = 3 then some (field p 0 2, .blocked) else none
  | _ => none

/-- ALLOCATE: tag (2); flags (1: id, weight, diameter, width present, FROM_CRANE, crane present, GROUND_ONLY); id (4);
weight (2); diameter (2); width (2); group (1); source x (3); crane (1); preferred mask (1). -/
structure RawAllocate where
  tag : Nat
  coil : Option CoilId
  weight : Option Nat
  diameter : Option Nat
  width : Option Nat
  group : Nat
  source : SourceX
  crane : Option Nat
  mask : Byte
  groundOnly : Bool
deriving DecidableEq, Repr

/-- The ALLOCATE payload, 19 bytes. -/
def readAllocate (p : List Byte) : Option RawAllocate :=
  if p.length = 19 then
    some { tag := field p 0 2, coil := optId (flag p 2 0) p 3, weight := optField (flag p 2 1) p 7 2,
           diameter := optField (flag p 2 2) p 9 2, width := optField (flag p 2 3) p 11 2, group := field p 13 1,
           source := if flag p 2 4 then .fromCrane else .given (field p 14 3),
           crane := optField (flag p 2 5) p 17 1, mask := BitVec.ofNat 8 (field p 18 1), groundOnly := flag p 2 6 }
  else none

/-- The placements of a PLAN_LOAD: offset (2, its bit 15 set when an expected id follows), then the expected id (4); none when
bytes are missing or left over. -/
def readPlacements : Nat → List Byte → Option (List Placement)
  | 0, p => if p.isEmpty then some [] else none
  | n + 1, p =>
    let expected := flag p 1 7
    let len := if expected then 6 else 2
    if p.length < len then none else
    match readPlacements n (p.drop len) with
    | some rest => some (⟨field p 0 2 % 2 ^ 15, optId expected p 2, .planned⟩ :: rest)
    | none => none

/-- A PLAN_LOAD of 60 bytes, a plan with a truck id and six expected ids, packed: truck id (4); tare front, tare rear (2 each);
wheelbase (2; bits 14 and 15 are bits 0 and 1 of the bay); bed height (2; bit 14 is bit 2 of the bay, bit 15 STRICT); front max, rear
max, gross max (4 each); six placements, each offset (2; bit 15 is the bit of the share with the placement's number) and expected
id (4). -/
def readFullPlan (p : List Byte) : Nat × Plan :=
  let places := List.range 6
  let at_ := fun k : Nat => 24 + 6 * k
  (field p 8 2 / 2 ^ 14 + bit 2 (flag p 11 6),
    { truck := optId true p 0, tareFront := field p 4 2, tareRear := field p 6 2, wheelbase := field p 8 2 % 2 ^ 14,
      bed := field p 10 2 % 2 ^ 14, frontMax := field p 12 4, rearMax := field p 16 4, grossMax := field p 20 4,
      share := (places.map fun k => bit k (flag p (at_ k + 1) 7)).sum, strict := flag p 11 7,
      placements := places.map fun k => ⟨field p (at_ k) 2 % 2 ^ 15, optId true p (at_ k + 2), .planned⟩,
      front := field p 4 2, rear := field p 6 2, placedCount := 0, scalePending := false })

/-- PLAN_LOAD: bay (1); flags (1: truck id present, STRICT, and the placement count in bits 2 to 4); truck id (4) when present;
tare front, tare rear, wheelbase, bed height (2 each); front max, rear max, gross max (4 each); share (1); the placements. Such a
payload has an odd length; the one plan that it would take beyond 60 bytes comes packed in 60 (log 7). -/
def readPlan (p : List Byte) : Option (Nat × Plan) :=
  if p.length = 60 then some (readFullPlan p) else
  let off := if flag p 1 0 then 6 else 2
  if p.length < off + 21 then none else
  match readPlacements (field p 1 1 / 4 % 8) (p.drop (off + 21)) with
  | none => none
  | some ps =>
    some (field p 0 1,
      { truck := optId (flag p 1 0) p 2, tareFront := field p off 2, tareRear := field p (off + 2) 2,
        wheelbase := field p (off + 4) 2, bed := field p (off + 6) 2, frontMax := field p (off + 8) 4,
        rearMax := field p (off + 12) 4, grossMax := field p (off + 16) 4, share := field p (off + 20) 1,
        strict := flag p 1 1, placements := ps, front := field p off 2, rear := field p (off + 2) 2, placedCount := 0,
        scalePending := false })

/-- HOLD: zone mask (4); duration in seconds (2). -/
def readHold (p : List Byte) : Option (ZoneMask × Nat) :=
  if p.length = 6 then some (BitVec.ofNat 32 (field p 0 4), field p 4 2) else none

/-- UNHOLD, BLOCK, UNBLOCK: zone mask (4). -/
def readMask (p : List Byte) : Option ZoneMask :=
  if p.length = 4 then some (BitVec.ofNat 32 (field p 0 4)) else none

/-- PLAN_CLEAR, BAY_ACK, STOP_RELEASE, MODE: one byte. -/
def readOne (p : List Byte) : Option Nat := if p.length = 1 then some (field p 0 1) else none

/-- TABLE_WRITE and TABLE_READ begin with the table identifier (1), the first index (2) and the entry count (1). -/
structure TableHead where
  table : Nat
  first : Nat
  count : Nat
deriving DecidableEq, Repr

/-- The head of a table frame; none when it is cut short. -/
def readTableHead (p : List Byte) : Option TableHead :=
  if 4 ≤ p.length then some ⟨field p 0 1, field p 1 2, field p 3 1⟩ else none

/-- The bytes of one entry in each table's layout (log 7), and the most entries of a frame (R178). -/
def tableForm : Nat → Option (Nat × Nat)
  | 1 => some (30, 1)
  | 2 => some (7, 8)
  | 3 => some (8, 4)
  | 4 => some (8, 7)
  | 5 => some (21, 2)
  | 6 => some (1, 8)
  | 7 => some (5, 8)
  | 8 => some (29, 1)
  | 9 => some (4, 14)
  | _ => none

/-- The entries of a table write: `count` pieces of `len` bytes. -/
def pieces (len : Nat) : Nat → List Byte → List (List Byte)
  | 0, _ => []
  | n + 1, p => p.take len :: pieces len n (p.drop len)

/-- A QUERY's fields: kind (1), subject (2), part (1), options (1, bit 0 clear-counts). -/
structure QueryRequest where
  kind : Nat
  subject : Nat
  part : Nat
  clear : Bool
deriving DecidableEq, Repr

/-- The QUERY payload, 5 bytes. -/
def readQuery (p : List Byte) : Option QueryRequest :=
  if p.length = 5 then some ⟨field p 0 1, field p 1 2, field p 3 1, flag p 4 0⟩ else none

end Sys2Proof.Machine
end

