-- ==== Sys2Proof/Machine/Ops.lean ====
section
/-! DEFINITION. The named operations that every unit uses: time and rounding, access to the part's records, frames and
their check, the transmitters and queues of the link, notices, replies and verdicts. -/

namespace Sys2Proof.Machine

/-! ## Counting, rounding and time -/

/-- A count of events rises by 1 and saturates at 65,535 (00, Conventions). -/
def bump (n : Nat) : Nat := min (n + 1) Config.countTop

/-- Division of naturals, ceiling (00, Conventions). -/
def ceilDiv (a b : Nat) : Nat := (a + (b - 1)) / b

/-- Division to nearest, a tie away from zero (00, Conventions). -/
def nearest (a : Int) (b : Nat) : Int :=
  let q := (2 * a.natAbs + b) / (2 * b)
  if a < 0 then -(q : Int) else (q : Int)

/-- Division of naturals to nearest, a tie up (R151). -/
def nearestUp (a b : Nat) : Nat := (2 * a + b) / (2 * b)

/-- An integer brought into 0 to `top`. -/
def clampTo (top : Nat) (v : Int) : Nat := min v.toNat top

/-- The absolute difference of two naturals. -/
def apart (a b : Nat) : Nat := (a - b) + (b - a)

/-- A time has passed when now less it, modulo 2^32, is below 2^31 (00, Conventions). -/
def passed (now t : Time) : Bool := decide ((now - t).toNat < 2 ^ 31)

/-- The milliseconds since a time, modulo 2^32. -/
def since (now t : Time) : Nat := (now - t).toNat

/-- A time a number of milliseconds after another (R182). -/
def after (now : Time) (ms : Nat) : Time := now + BitVec.ofNat 32 ms

/-- "A sequence s2 is newer than s1 when (s2 − s1) modulo 256 lies in 1 to 127" (00, Conventions). -/
def newer (s2 s1 : Byte) : Bool := decide (1 ≤ (s2 - s1).toNat) && decide ((s2 - s1).toNat ≤ 127)

/-! ## The parts of the part -/

/-- The crane indices in ascending order. -/
def craneList : List (Fin 4) := [0, 1, 2, 3]

/-- The bay indices in ascending order. -/
def bayList : List (Fin 6) := [0, 1, 2, 3, 4, 5]

/-- The block indices in ascending order. -/
def blockList : List (Fin 8) := [0, 1, 2, 3, 4, 5, 6, 7]

/-- The zone indices in ascending order. -/
def zoneList : List Nat := List.range 32

/-- The millisecond counter (R182). -/
def Part.now (p : Part) : Time := p.mgmt.clock

/-- A crane's table entry (R1). -/
def Part.entry (p : Part) (c : Fin 4) : CraneEntry := p.tracker.entries[c]

/-- A crane's record (R5). -/
def Part.record (p : Part) (c : Fin 4) : CraneRecord := p.tracker.records[c]

/-- The part with a crane's record replaced. -/
def Part.setRecord (p : Part) (c : Fin 4) (r : CraneRecord) : Part :=
  { p with tracker := { p.tracker with records := p.tracker.records.set c r } }

/-- The zone at an index; beyond the table, an entry that is not defined. -/
def Part.zone (p : Part) (k : Nat) : Zone := if h : k < 32 then p.arbiter.zones[k] else Zone.reset

/-- The part with a zone replaced; an index beyond the table changes nothing. -/
def Part.setZone (p : Part) (k : Nat) (z : Zone) : Part :=
  if h : k < 32 then { p with arbiter := { p.arbiter with zones := p.arbiter.zones.set k z } } else p

/-- A crane's grant run (R26). -/
def Part.run (p : Part) (c : Fin 4) : Option Run := p.arbiter.runs[c]

/-- The part with a crane's grant run replaced. -/
def Part.setRun (p : Part) (c : Fin 4) (r : Option Run) : Part :=
  { p with arbiter := { p.arbiter with runs := p.arbiter.runs.set c r } }

/-- A crane's claim (R27). -/
def Part.claim (p : Part) (c : Fin 4) : Option Claim := p.arbiter.claims[c]

/-- The part with a crane's claim field replaced. -/
def Part.setClaim (p : Part) (c : Fin 4) (cl : Option Claim) : Part :=
  { p with arbiter := { p.arbiter with claims := p.arbiter.claims.set c cl } }

/-- A crane's order record (R54). -/
def Part.order (p : Part) (c : Fin 4) : Option Order := p.gate.orders[c]

/-- The part with a crane's order record replaced. -/
def Part.setOrder (p : Part) (c : Fin 4) (o : Option Order) : Part :=
  { p with gate := { p.gate with orders := p.gate.orders.set c o } }

/-- A crane's stop latch (R66). -/
def Part.latch (p : Part) (c : Fin 4) : Latch := p.gate.latches[c]

/-- The part with a crane's stop latch replaced. -/
def Part.setLatch (p : Part) (c : Fin 4) (l : Latch) : Part :=
  { p with gate := { p.gate with latches := p.gate.latches.set c l } }

/-- A crane's hook record (R83). -/
def Part.hook (p : Part) (c : Fin 4) : Hook := p.hooks[c]

/-- The part with a crane's hook record replaced. -/
def Part.setHook (p : Part) (c : Fin 4) (h : Hook) : Part := { p with hooks := p.hooks.set c h }

/-- A bay's table entry (R135). -/
def Part.bayEntry (p : Part) (b : Fin 6) : BayEntry := p.bays.entries[b]

/-- A bay's record (R158). -/
def Part.bay (p : Part) (b : Fin 6) : BayRecord := p.bays.records[b]

/-- The part with a bay's record replaced. -/
def Part.setBay (p : Part) (b : Fin 6) (r : BayRecord) : Part :=
  { p with bays := { p.bays with records := p.bays.records.set b r } }

/-- A crane index that a field names. -/
def craneOf (n : Nat) : Option (Fin 4) := if h : n < 4 then some ⟨n, h⟩ else none

/-- A bay index that a field names. -/
def bayOf (n : Nat) : Option (Fin 6) := if h : n < 6 then some ⟨n, h⟩ else none

/-- The cranes that are configured, west to east (R1). -/
def Part.configured (p : Part) : List (Fin 4) := craneList.filter fun c => (p.entry c).configured

/-- The approach allowance A = ceiling(vmax · t_r / 1000), 0 for a crane that is not configured (R3). -/
def CraneEntry.allowance (e : CraneEntry) : Nat := if e.configured then ceilDiv (e.vmax * e.reaction) 1000 else 0

/-- The hook is loaded in LIFTING and WEIGHED (R47). -/
def Hook.loaded (h : Hook) : Bool := h.state == .lifting || h.state == .weighed

/-- The hook's gripper, height and place are those of the last accepted POSITION: the crane's recorded x. -/
def Part.craneX (p : Part) (c : Fin 4) : Nat := ((p.record c).last.map Telegram.x).getD 0

/-- The crane's recorded y. -/
def Part.craneY (p : Part) (c : Fin 4) : Nat := ((p.record c).last.map Telegram.y).getD 0

/-! ## The zones of the runway -/

/-- Whether the zone table fails to tile the runway at entry `k` (R24; which entry a gap names is log 14). -/
def Part.tilingFails (p : Part) (k : Nat) : Bool :=
  let z := p.zone k
  if k = 0 then !z.defined || z.start != 0 || decide (p.params.length ≤ z.start)
  else z.defined && (!(p.zone (k - 1)).defined || decide (z.start ≤ (p.zone (k - 1)).start)
    || decide (p.params.length ≤ z.start))

/-- The first zone entry at which tiling fails (R188 check 1). -/
def Part.tilingFailure (p : Part) : Option Nat := zoneList.find? p.tilingFails

/-- The zone table tiles the runway (R24). -/
def Part.tiles (p : Part) : Bool := p.tilingFailure.isNone

/-- z(x): the zone of a position (R20, R24): the last defined entry that starts at or west of it. -/
def Part.zoneOf (p : Part) (x : Nat) : Nat :=
  zoneList.foldl (fun best k => if (p.zone k).defined && decide ((p.zone k).start ≤ x) then k else best) 0

/-- end(k): the next zone's start, or L for the last zone (R24). While the table does not tile R24 gives no end: this same value then
stands, a DESIGN CHOICE (log 33). -/
def Part.zoneEnd (p : Part) (k : Nat) : Nat :=
  if (p.zone (k + 1)).defined then (p.zone (k + 1)).start else p.params.length

/-- A zone is HELD while its management part is present or its bay part is not empty (R25). -/
def Zone.held (z : Zone) : Bool := z.hold.isSome || z.bayHold.any

/-- A zone is grantable when it is FREE, not HELD and not blocked (R25). -/
def Zone.grantable (z : Zone) : Bool := z.grant.isNone && !z.held && !z.blocked

/-- The span around a position: its structure, margin and approach allowance, clamped to the runway (R34, R58). -/
def Part.span (p : Part) (c : Fin 4) (x : Int) : Nat × Nat :=
  let e := p.entry c
  (clampTo (p.params.length - 1) (x - e.westExt - e.margin - e.allowance),
    clampTo (p.params.length - 1) (x + e.eastExt + e.margin + e.allowance))

/-! ## Frames and their check (R162) -/

/-- One data bit through the CRC register (R162). -/
def crcBit (r : Check) (b : Bool) : Check :=
  if xor (r.getLsbD 0) b then (r >>> 1) ^^^ 0x8408 else r >>> 1

/-- One byte, least significant bit first (R162). -/
def crcByte (r : Check) (b : Byte) : Check :=
  [0, 1, 2, 3, 4, 5, 6, 7].foldl (fun r i => crcBit r (b.getLsbD i)) r

/-- The check over bytes, the register preset to all ones (R162). -/
def crc (bytes : List Byte) : Check := bytes.foldl crcByte 0xFFFF

/-- The bytes the check covers: destination through the last payload byte (R162). -/
def Frame.covered (f : Frame) : List Byte :=
  [f.dest, f.src, f.kind, f.seq, BitVec.ofNat 8 f.payload.length] ++ f.payload

/-- A frame the part originates, with its check (R162, R168). -/
def ownFrame (station dest : Byte) (kind : Kind) (seq : Byte) (payload : List Byte) : Frame :=
  let f : Frame := ⟨dest, station, kind.code, seq, payload, 0⟩
  { f with check := crc f.covered }

/-- The frame of an URGENT entry (R167, R170). -/
def UrgentEntry.frame (station : Byte) (u : UrgentEntry) : Frame :=
  let dest : Byte := BitVec.ofNat 8 (u.crane.val + 1)
  match u.body with
  | .stop causes => ownFrame station dest .stop u.seq (le 1 causes.flags)
  | .halt tag => ownFrame station dest .halt u.seq (le 2 tag)

/-! ## Transmitters and queues -/

/-- An idle supervisor-port transmitter starts the next frame: REPLY first, then TELEMETRY (R169, R172, R173). -/
def Link.startSupervisor (l : Link) : Link :=
  match l.sup.tx with
  | some _ => l
  | none =>
    match l.reply with
    | f :: rest => { l with sup := { l.sup with tx := some f }, reply := rest }
    | [] =>
      match l.telemetry with
      | f :: rest => { l with sup := { l.sup with tx := some f }, telemetry := rest }
      | [] => l

/-- An idle crane-port transmitter starts the next frame: URGENT first, then NORMAL (R169, R170, R171). -/
def Link.startCrane (l : Link) : Link :=
  match l.crane.tx with
  | some _ => l
  | none =>
    match l.urgent with
    | u :: rest => { l with crane := { l.crane with tx := some (u.frame l.station) }, urgent := rest }
    | [] =>
      match l.normal with
      | e :: rest => { l with crane := { l.crane with tx := some e.frame }, normal := rest }
      | [] => l

/-- REPLY has room (R173). -/
def Link.replyRoom (l : Link) : Bool := decide (l.reply.length < Config.replyCapacity)

/-- NORMAL has room for one frame (R171). -/
def Link.normalRoom (l : Link) : Bool := decide (l.normal.length < Config.normalCapacity)

/-- A frame of the part's own enters REPLY: it takes its sequence, and is sent at once on an idle line (R168, R169). -/
def Link.pushReply (kind : Kind) (payload : List Byte) (l : Link) : Link :=
  Link.startSupervisor
    { l with reply := l.reply ++ [ownFrame l.station 0 kind l.seq payload], seq := l.seq + 1 }

/-- A frame of the part's own enters NORMAL at the tail (R168, R171). -/
def Link.pushNormal (sort : NormalSort) (dest : Byte) (kind : Kind) (payload : List Byte) (l : Link) : Link :=
  Link.startCrane
    { l with normal := l.normal ++ [⟨sort, ownFrame l.station dest kind l.seq payload⟩], seq := l.seq + 1 }

/-- A frame forwarded from the supervisor port enters NORMAL unchanged (R165, R171). -/
def Link.forwardNormal (f : Frame) (l : Link) : Link :=
  Link.startCrane { l with normal := l.normal ++ [⟨.transparent, f⟩] }

/-- The queue without the first frame of a source and kind; unchanged when there is none. -/
def dropSame (f : Frame) : List Frame → List Frame
  | [] => []
  | g :: rest => if g.src = f.src ∧ g.kind = f.kind then rest else g :: dropSame f rest

/-- Whether the queue holds a frame of the same source and kind. -/
def hasSame (f : Frame) (q : List Frame) : Bool := q.any fun g => decide (g.src = f.src ∧ g.kind = f.kind)

/-- A frame enters TELEMETRY; when it is full, the oldest frame of the same source and kind, or else the oldest of all, is
discarded first and counted (R172). -/
def Link.pushTelemetry (f : Frame) (l : Link) : Link :=
  let full := decide (Config.telemetryCapacity ≤ l.telemetry.length)
  let kept := if full then (if hasSame f l.telemetry then dropSame f l.telemetry else l.telemetry.drop 1) else l.telemetry
  let counts := if full then { l.sup.counts with telemetryDiscards := bump l.sup.counts.telemetryDiscards } else l.sup.counts
  Link.startSupervisor { l with telemetry := kept ++ [f], sup := { l.sup with counts := counts } }

/-- Every crane command for a crane, give-way moves included, leaves NORMAL (R64, R66, R171). -/
def NormalSort.commands (c : Fin 4) : NormalSort → Bool
  | .command c' => c' == c
  | .giveWay c' => c' == c
  | _ => false

/-- NORMAL without the crane commands of a crane. -/
def Link.removeCommands (c : Fin 4) (l : Link) : Link :=
  { l with normal := l.normal.filter fun e => !e.sort.commands c }

/-- URGENT without the entry of a crane (R67, R68, R69). -/
def Link.removeUrgent (c : Fin 4) (l : Link) : Link := { l with urgent := l.urgent.filter fun u => u.crane != c }

/-- URGENT without an unsent STOP of a crane (R68, R69). -/
def Link.removeStop (c : Fin 4) (l : Link) : Link :=
  { l with urgent := l.urgent.filter fun u => !(u.crane == c && match u.body with | .stop _ => true | .halt _ => false) }

/-- A STOP with the whole cause set: it updates the crane's entry in place, or is added (R66 step 2). -/
def Link.putStop (c : Fin 4) (causes : CauseSet) (l : Link) : Link :=
  if l.urgent.any fun u => u.crane == c then
    { l with urgent := l.urgent.map fun u => if u.crane = c then { u with body := .stop causes } else u }
  else
    Link.startCrane { l with urgent := l.urgent ++ [⟨c, l.seq, .stop causes⟩], seq := l.seq + 1 }

/-- A HALT: it is added, gives an entry that is a HALT its tag, and adds nothing beside a STOP (R65). -/
def Link.putHalt (c : Fin 4) (tag : Nat) (l : Link) : Link :=
  if l.urgent.any fun u => u.crane == c then
    { l with urgent := l.urgent.map fun u =>
        if u.crane = c then
          match u.body with
          | .stop _ => u
          | .halt _ => { u with body := .halt tag }
        else u }
  else
    Link.startCrane { l with urgent := l.urgent ++ [⟨c, l.seq, .halt tag⟩], seq := l.seq + 1 }

/-- The part with its link changed. -/
def Part.onLink (p : Part) (f : Link → Link) : Part := { p with link := f p.link }

/-! ## Notices, replies and verdicts -/

/-- A notice is queued (R183, R184): into REPLY at once when nothing waits before it and REPLY has room; otherwise at the
tail of the notice queue, from which a full queue first drops its oldest record and counts it lost. -/
def Part.notify (p : Part) (kind : NoticeKind) (subject : Nat) (v1 v2 v3 : Nat) : Part :=
  let n : Notice := ⟨kind, p.now, subject, v1, v2, v3⟩
  if p.mgmt.notices.isEmpty && p.link.replyRoom then p.onLink (Link.pushReply .notice n.payload)
  else if p.mgmt.notices.length < Config.noticeCapacity then
    { p with mgmt := { p.mgmt with notices := p.mgmt.notices ++ [n] } }
  else
    { p with mgmt := { p.mgmt with notices := p.mgmt.notices.drop 1 ++ [n], lost := bump p.mgmt.lost } }

/-- The order gate gives a verdict: into REPLY when its verdict list is empty and REPLY has room, otherwise it joins the
list (R56). -/
def Part.giveVerdict (p : Part) (v : Verdict) : Part :=
  if p.gate.verdicts.isEmpty && p.link.replyRoom then p.onLink (Link.pushReply .verdict v.payload)
  else { p with gate := { p.gate with verdicts := p.gate.verdicts ++ [v] } }

/-- The allocation engine gives an answer: into REPLY when its answer list is empty and REPLY has room, otherwise it joins
the list (R126). -/
def Part.giveAnswer (p : Part) (a : ReplyBody) : Part :=
  if p.engine.answers.isEmpty && p.link.replyRoom then p.onLink (Link.pushReply .reply a.payload)
  else { p with engine := { p.engine with answers := p.engine.answers ++ [a] } }

/-- The management responder gives its reply: into REPLY when REPLY has room, otherwise it holds it (R176). -/
def Part.giveReply (p : Part) (r : ReplyBody) : Part :=
  if p.link.replyRoom then p.onLink (Link.pushReply .reply r.payload)
  else { p with mgmt := { p.mgmt with reply := some r } }

/-- A reply to a management frame (R177). -/
def Part.answerFrame (p : Part) (f : Frame) (answer : Answer) (reason : Option Reason) (data : List Byte) : Part :=
  p.giveReply ⟨f.kind, f.seq, answer, reason, data⟩

/-- OK with the data the rule names (R177). -/
def Part.ok (p : Part) (f : Frame) (data : List Byte) : Part := p.answerFrame f .ok none data

/-- REFUSED with a reason and data (R177). -/
def Part.refuse (p : Part) (f : Frame) (r : Reason) (data : List Byte) : Part := p.answerFrame f .refused (some r) data

/-- REFUSED with a reason and the index the rule names, a 2-byte field (R177). -/
def Part.refuseAt (p : Part) (f : Frame) (r : Reason) (index : Nat) : Part := p.refuse f r (le 2 index)

/-- WRONG_MODE (R177). -/
def Part.wrongMode (p : Part) (f : Frame) : Part := p.answerFrame f .wrongMode none []

/-- A verdict for a crane's order, or for a frame of it that is no order. -/
def Part.verdict (p : Part) (c : Fin 4) (tag : Nat) (kind : VerdictKind) (reason : Option Reason) (target permitted : Nat) :
    Part :=
  p.giveVerdict ⟨c, tag, kind, reason, target, permitted⟩

/-- A verdict on a crane's order record, with its resolved target x and permitted x (R56). -/
def Part.orderVerdict (p : Part) (c : Fin 4) (o : Order) (kind : VerdictKind) (reason : Option Reason) : Part :=
  p.verdict c o.tag kind reason o.target.x o.permitted

/-! ## Stations (R164) -/

/-- The configured crane at a station, if any (R164). -/
def Part.craneAt (p : Part) (station : Byte) : Option (Fin 4) :=
  craneList.find? fun c => (p.entry c).configured && decide (station.toNat = c.val + 1)

/-- The configured bay whose unit is at a station, if any (R164). -/
def Part.bayAt (p : Part) (station : Byte) : Option (Fin 6) :=
  bayList.find? fun b => (p.bayEntry b).configured && decide (station.toNat = (p.bayEntry b).station)

/-- What a source station is by the tables in force (R164). -/
def Part.senderNow (p : Part) (station : Byte) : Sender :=
  match p.craneAt station, p.bayAt station with
  | some c, _ => .crane c
  | none, some b => .bay b
  | none, none => .other

end Sys2Proof.Machine
end

