-- ==== Sys2Proof/Machine/Slots.lean ====
section
/-! DEFINITION. The slot map (05): the sparse slot table, the sums, the placement test, the checks and transitions of slots,
reservations and custody. -/

namespace Sys2Proof.Machine

/-! ## The slot table as a sparse list -/

/-- The slot at an index; none for an index that is not defined. -/
def slotFind (i : Nat) : List (Nat × Slot) → Option Slot
  | [] => none
  | (j, s) :: rest => if j = i then some s else slotFind i rest

/-- The table with a slot written at an index, indices kept rising. -/
def slotPut (i : Nat) (s : Slot) : List (Nat × Slot) → List (Nat × Slot)
  | [] => [(i, s)]
  | (j, t) :: rest => if i < j then (i, s) :: (j, t) :: rest else if i = j then (i, s) :: rest else (j, t) :: slotPut i s rest

/-- The table with an index not defined. -/
def slotDrop (i : Nat) : List (Nat × Slot) → List (Nat × Slot)
  | [] => []
  | (j, t) :: rest => if j = i then rest else (j, t) :: slotDrop i rest

/-- The canonical form of the slot table: indices strictly rising. -/
abbrev SlotMap.Sorted (m : SlotMap) : Prop := m.slots.Pairwise fun a b => a.1 < b.1

/-- The slot at an index (R99). -/
def SlotMap.slot (m : SlotMap) (i : Nat) : Option Slot := slotFind i m.slots

/-- The map with a defined slot's contents replaced; an index that is not defined changes nothing. -/
def SlotMap.setContents (m : SlotMap) (i : Nat) (c : Contents) : SlotMap :=
  match m.slot i with
  | some s => { m with slots := slotPut i { s with contents := c } m.slots }
  | none => m

/-! ## Sums (R98) -/

/-- The sum of a weight over a block's slots. -/
def SlotMap.sum (m : SlotMap) (b : Fin 8) (w : Contents → Nat) : Nat :=
  m.slots.foldl (fun n e => if e.2.geo.block = b then n + w e.2.contents else n) 0

/-- What a slot adds to its block's occupied sum (R98). -/
def Contents.occupiedWeight : Contents → Nat
  | .occupied coil _ => coil.weight
  | .outgoing coil _ _ => coil.weight
  | _ => 0

/-- What a slot adds to its block's incoming sum (R98). -/
def Contents.incomingWeight : Contents → Nat
  | .incoming _ _ w => w
  | _ => 0

/-- The declared weight of a RESERVED slot (R98). -/
def Contents.reservedWeight : Contents → Nat
  | .reserved r => r.weight
  | _ => 0

/-- The incoming weight of a slot that is not on its way for this crane (R108). -/
def Contents.incomingOther (c : Fin 4) : Contents → Nat
  | .incoming _ c' w => if c' = c then 0 else w
  | _ => 0

/-- The occupied sum (R98). -/
def SlotMap.occupiedSum (m : SlotMap) (b : Fin 8) : Nat := m.sum b Contents.occupiedWeight

/-- The incoming sum (R98). -/
def SlotMap.incomingSum (m : SlotMap) (b : Fin 8) : Nat := m.sum b Contents.incomingWeight

/-- The reserved sum: the declared weights of the RESERVED slots plus the incoming sum (R98). -/
def SlotMap.reservedSum (m : SlotMap) (b : Fin 8) : Nat := m.sum b Contents.reservedWeight + m.incomingSum b

/-- The committed sum (R98). -/
def SlotMap.committedSum (m : SlotMap) (b : Fin 8) : Nat := m.occupiedSum b + m.incomingSum b

/-- The committed sum less the incoming weight of the slots INCOMING for a crane (R108). -/
def SlotMap.committedFor (m : SlotMap) (c : Fin 4) (b : Fin 8) : Nat := m.occupiedSum b + m.sum b (Contents.incomingOther c)

/-! ## What a saddle may take -/

/-- A known size is at most a limit; a size that is not known meets it (R101). -/
def fits (size : Option Nat) (limit : Nat) : Bool :=
  match size with
  | some n => decide (n ≤ limit)
  | none => true

/-- The coil record of an OCCUPIED slot. -/
def SlotMap.standing (m : SlotMap) (i : Nat) : Option Coil :=
  match m.slot i with
  | some ⟨_, .occupied coil _⟩ => some coil
  | _ => none

/-- The stacking rules of a tier-2 slot over two standing coils, in their order (R102). -/
def stackTest (overhang : Nat) (coil a b : Coil) : Option Reason :=
  if a.quality ≠ .good ∨ b.quality ≠ .good ∨ coil.quality ≠ .good then some .stackQuality
  else if min a.weight b.weight < coil.weight then some .stackWeight
  else
    match coil.diameter, a.diameter, b.diameter with
    | some d, some da, some db =>
      if min da db + overhang < d then some .stackDiameter
      else if a.group < coil.group ∨ b.group < coil.group then some .stackGroup
      else none
    | _, _, _ => some .stackDiameter

/-- The tier-2 part of the placement test (R101, R102). -/
def SlotMap.tierTest (m : SlotMap) (s : Slot) (coil : Coil) : Option Reason :=
  match s.geo.tier with
  | .floor => none
  | .upper i j =>
    match m.standing i, m.standing j with
    | some a, some b => stackTest m.blocks[s.geo.block].overhang coil a b
    | _, _ => some .stackSupport

/-- The placement test of R101: size, tier 2, floor. `load` is the floor basis, plus the occupied sum where the basis is the
reserved sum. -/
def SlotMap.placementTest (m : SlotMap) (s : Slot) (coil : Coil) (load : Nat) : Option Reason :=
  if !(fits coil.diameter s.geo.maxDiameter && fits coil.width s.geo.maxWidth) then some .sizeLimit
  else
    match m.tierTest s coil with
    | some r => some r
    | none => if m.blocks[s.geo.block].limit < load + coil.weight then some .floorLimit else none

/-- The floor load of a reservation: occupied sum plus reserved sum (R101). -/
def SlotMap.reservationLoad (m : SlotMap) (b : Fin 8) : Nat := m.occupiedSum b + m.reservedSum b

/-- RESERVED, INCOMING, OCCUPIED or OUTGOING: what buries a support (R103). -/
def Contents.inUse : Contents → Bool
  | .free => false
  | .blocked => false
  | _ => true

/-- A tier-2 slot names a slot as one of its supports (R103). -/
def Tier.above (t : Tier) (i : Nat) : Bool :=
  match t with
  | .floor => false
  | .upper a b => a == i || b == i

/-- A slot is buried when a slot above it is in use (R103). -/
def SlotMap.buried (m : SlotMap) (i : Nat) : Bool :=
  m.slots.any fun e => e.2.geo.tier.above i && e.2.contents.inUse

/-! ## Lifting a coil out of a slot -/

/-- The check of a PICK SLOT (R104). -/
def SlotMap.pickCheck (m : SlotMap) (i : Nat) : Option Reason :=
  match m.slot i with
  | some ⟨_, .occupied _ _⟩ => if m.buried i then some .buried else none
  | some _ => some .slotState
  | none => some .badLocation

/-- OCCUPIED becomes OUTGOING for a crane (R105). -/
def SlotMap.lift (m : SlotMap) (i : Nat) (c : Fin 4) : SlotMap :=
  match m.slot i with
  | some ⟨_, .occupied coil placed⟩ => m.setContents i (.outgoing coil placed c)
  | _ => m

/-- The coil a hook takes from its source slot, which becomes FREE (R106); none when the slot is not OUTGOING for it. -/
def SlotMap.take (m : SlotMap) (i : Nat) (c : Fin 4) : Option Coil × SlotMap :=
  match m.slot i with
  | some ⟨_, .outgoing coil _ c'⟩ => if c' = c then (some coil, m.setContents i .free) else (none, m)
  | _ => (none, m)

/-- A source cleared without a weighing: OUTGOING for the crane becomes OCCUPIED again (R107). -/
def SlotMap.revertSource (m : SlotMap) (i : Nat) (c : Fin 4) : SlotMap :=
  match m.slot i with
  | some ⟨_, .outgoing coil placed c'⟩ => if c' = c then m.setContents i (.occupied coil placed) else m
  | _ => m

/-! ## Setting a coil into a slot -/

/-- A slot's contents as a PLACE for a crane judges them: a slot INCOMING for the crane itself as it will stand once that
destination is reverted (R108). -/
def Contents.judged (c : Fin 4) (x : Contents) : Contents :=
  match x with
  | .incoming r c' _ => if c' = c then (if r.lapsed then .free else .reserved r) else x
  | _ => x

/-- A reservation is open to a hook's coil (R108 check 2). -/
def Reservation.open_ (r : Reservation) (id : Option CoilId) : Bool := id.isNone || (r.id.isSome && r.id == id)

/-- The check of a PLACE SLOT for a crane with a coil (R108). -/
def SlotMap.placeCheck (m : SlotMap) (i : Nat) (c : Fin 4) (coil : Coil) : Option Reason :=
  match m.slot i with
  | none => some .badLocation
  | some s =>
    match s.contents.judged c with
    | .free => m.placementTest s coil (m.committedFor c s.geo.block)
    | .reserved r =>
      if r.open_ coil.id then m.placementTest s coil (m.committedFor c s.geo.block) else some .reservedOther
    | _ => some .slotState

/-- The reservation that a placement into a FREE slot makes, number 0 (R109). -/
def placementReservation (coil : Coil) (expiry : Time) : Reservation :=
  ⟨0, coil.id, coil.weight, coil.diameter, coil.width, coil.group, expiry, false⟩

/-- RESERVED or FREE becomes INCOMING for a crane (R109). -/
def SlotMap.lower (m : SlotMap) (i : Nat) (c : Fin 4) (coil : Coil) (expiry : Time) : SlotMap :=
  match m.slot i with
  | some ⟨_, .reserved r⟩ => m.setContents i (.incoming r c coil.weight)
  | some ⟨_, .free⟩ => m.setContents i (.incoming (placementReservation coil expiry) c coil.weight)
  | _ => m

/-- Whether a slot is INCOMING for a crane (R110). -/
def SlotMap.incomingFor (m : SlotMap) (i : Nat) (c : Fin 4) : Bool :=
  match m.slot i with
  | some ⟨_, .incoming _ c' _⟩ => c' == c
  | _ => false

/-- The set-down: the slot becomes OCCUPIED with the coil, placed now (R110). -/
def SlotMap.deliver (m : SlotMap) (i : Nat) (coil : Coil) (now : Time) : SlotMap := m.setContents i (.occupied coil now)

/-- A destination cleared without a set-down: RESERVED, or FREE when the reservation is lapsed (R111), with the reservation
that then expires. -/
def SlotMap.revertDest (m : SlotMap) (i : Nat) (c : Fin 4) : SlotMap × Option Reservation :=
  match m.slot i with
  | some ⟨_, .incoming r c' _⟩ =>
    if c' = c then
      if r.lapsed then (m.setContents i .free, some r) else (m.setContents i (.reserved r), none)
    else (m, none)
  | _ => (m, none)

/-! ## Custody (R117) -/

/-- The id of a coil that stands in an OCCUPIED or OUTGOING slot. -/
def Contents.custodyId : Contents → Option CoilId
  | .occupied coil _ => coil.id
  | .outgoing coil _ _ => coil.id
  | _ => none

/-- An id stands in an OCCUPIED or OUTGOING slot other than the one given (R116, R117). -/
def SlotMap.holds (m : SlotMap) (id : CoilId) (except : Option Nat) : Bool :=
  m.slots.any fun e => e.2.contents.custodyId == some id && except != some e.1

/-- An id stands on a WEIGHED hook other than the crane's own (R88, R117). -/
def Part.hookHolds (p : Part) (id : CoilId) (except : Option (Fin 4)) : Bool :=
  craneList.any fun c => (p.hook c).state == .weighed && except != some c
    && ((p.hook c).coil.bind Coil.id) == some id

/-- The coil id of a PLACED placement. -/
def PlacementState.placedId : PlacementState → Option CoilId
  | .placed coil => coil.id
  | _ => none

/-- An id stands in a PLACED placement of a configured bay's plan (R142). -/
def Part.placementHolds (p : Part) (id : CoilId) : Bool :=
  bayList.any fun b => (p.bayEntry b).configured
    && ((p.bay b).plan.any fun pl => pl.placements.any fun k => k.state.placedId == some id)

/-! ## Reservations -/

/-- RESERVATION_EXPIRED for a slot (R114). -/
def Part.noticeExpired (p : Part) (i : Nat) (r : Reservation) : Part :=
  p.notify .reservationExpired i r.number (r.id.elim 0 BitVec.toNat) r.expiry.toNat

/-- The part with the slot map changed. -/
def Part.onSlots (p : Part) (f : SlotMap → SlotMap) : Part := { p with slots := f p.slots }

/-- The revert of a destination slot with its notice (R111). -/
def Part.revertSlotDest (p : Part) (i : Nat) (c : Fin 4) : Part :=
  let (m, gone) := p.slots.revertDest i c
  let p := { p with slots := m }
  match gone with
  | some r => p.noticeExpired i r
  | none => p

/-- The reservation counter after a number: from 65,535 back to 1 (R112). -/
def nextReservation (n : Nat) : Nat := if 65535 ≤ n then 1 else n + 1

/-- A new reservation's expiry: now plus the reservation time (R112). -/
def Part.reservationExpiry (p : Part) : Time := after p.now (p.params.reservationTime * 1000)

/-- A FREE slot is reserved with the next number (R112, R113). -/
def Part.makeReservation (p : Part) (i : Nat) (id : Option CoilId) (weight : Nat) (diameter width : Option Nat)
    (group : Nat) : Part × Reservation :=
  let r : Reservation := ⟨p.slots.counter, id, weight, diameter, width, group, p.reservationExpiry, false⟩
  ({ p with slots := { (p.slots.setContents i (.reserved r)) with counter := nextReservation p.slots.counter } }, r)

/-- A RESERVE frame (R113). -/
def serveReserve (f : Frame) (p : Part) : Part :=
  match readReserve f.payload with
  | none => p.refuse f .malformed []
  | some (i, q) =>
    match p.slots.slot i with
    | none => p.refuse f .badValue []
    | some s =>
      match s.contents with
      | .free =>
        match p.slots.placementTest s ⟨q.id, q.weight, .good, q.diameter, q.width, q.group⟩
            (p.slots.reservationLoad s.geo.block) with
        | some r => p.refuse f r []
        | none =>
          let (p, r) := p.makeReservation i q.id q.weight q.diameter q.width q.group
          p.ok f (le 2 r.number ++ leTime r.expiry)
      | _ => p.refuse f .slotState []

/-- An UNRESERVE frame (R115). -/
def serveUnreserve (f : Frame) (p : Part) : Part :=
  match readUnreserve f.payload with
  | none => p.refuse f .malformed []
  | some (i, n) =>
    match p.slots.slot i with
    | none => p.refuse f .badValue []
    | some s =>
      match s.contents with
      | .reserved r =>
        if n = 0 ∨ n = r.number then (p.onSlots fun m => m.setContents i .free).ok f []
        else p.refuse f .reservedOther []
      | .incoming _ _ _ => p.refuse f .inUse []
      | _ => p.refuse f .slotState []

/-- The weight of a slot's present coil if it is OCCUPIED (R116). -/
def Contents.standingWeight : Contents → Nat
  | .occupied coil _ => coil.weight
  | _ => 0

/-- The checks of a SLOT_SET OCCUPIED after the first three (R116). -/
def Part.slotSetCheck (p : Part) (i : Nat) (s : Slot) (coil : Coil) : Option Reason :=
  let m := p.slots
  let supported := match s.geo.tier with
    | .floor => true
    | .upper a b => (m.standing a).isSome && (m.standing b).isSome
  if !supported then some .stackSupport
  else if m.blocks[s.geo.block].limit < m.committedSum s.geo.block - s.contents.standingWeight + coil.weight then
    some .floorLimit
  else
    match coil.id with
    | none => none
    | some id => if m.holds id (some i) || p.hookHolds id none || p.placementHolds id then some .duplicateId else none

/-- A slot is FREE, OCCUPIED or BLOCKED (R116). -/
def Contents.settable : Contents → Bool
  | .free => true
  | .occupied _ _ => true
  | .blocked => true
  | _ => false

/-- A SLOT_SET frame (R116). -/
def serveSlotSet (f : Frame) (p : Part) : Part :=
  match readSlotSet f.payload with
  | none => p.refuse f .malformed []
  | some (i, new) =>
    match p.slots.slot i with
    | none => p.refuse f .badValue []
    | some s =>
      if !s.contents.settable then p.refuse f .inUse [] else
      match new with
      | .free =>
        if p.slots.buried i then p.refuse f .buried [] else (p.onSlots fun m => m.setContents i .free).ok f []
      | .blocked =>
        if p.slots.buried i then p.refuse f .buried [] else (p.onSlots fun m => m.setContents i .blocked).ok f []
      | .occupied coil =>
        match p.slotSetCheck i s coil with
        | some r => p.refuse f r []
        | none => (p.onSlots fun m => m.setContents i (.occupied coil p.now)).ok f []

/-- The expiry of a slot's reservation, when it has passed: RESERVED becomes FREE with its notice, INCOMING is marked lapsed
(R114). -/
def serveReservationExpiry (i : Nat) (p : Part) : Part :=
  match p.slots.slot i with
  | some ⟨_, .reserved r⟩ =>
    if passed p.now r.expiry then (p.onSlots fun m => m.setContents i .free).noticeExpired i r else p
  | some ⟨_, .incoming r c w⟩ =>
    if passed p.now r.expiry then p.onSlots fun m => m.setContents i (.incoming { r with lapsed := true } c w) else p
  | _ => p

end Sys2Proof.Machine
end

