-- ==== Sys2Proof/Machine/Bays.lean ====
section
/-! DEFINITION. What the bay controller answers (07): bay positions, the axle computation, the placement check, the cab
area, and the derivation of a bay's state from its facts. -/

namespace Sys2Proof.Machine

/-! ## Positions (R143) -/

/-- The placement at an index of a plan. -/
def Plan.placement (pl : Plan) (k : Nat) : Option Placement := pl.placements[k]?

/-- The plan with a placement's state replaced. -/
def Plan.setPlacement (pl : Plan) (k : Nat) (st : PlacementState) : Plan :=
  match pl.placement k with
  | some q => { pl with placements := pl.placements.set k { q with state := st } }
  | none => pl

/-- The coordinates of BAYPOS (b, k); none when it does not resolve (R143). -/
def Part.bayPoint (p : Part) (b : Fin 6) (k : Nat) : Option Point :=
  let e := p.bayEntry b
  match e.configured, (p.bay b).plan with
  | true, some pl =>
    match pl.placement k with
    | none => none
    | some q =>
      let x : Int := match e.front with
        | .east => (e.axle : Int) - q.offset
        | .west => (e.axle : Int) + q.offset
      if 0 ≤ x ∧ x ≤ 262143 then some ⟨x.toNat, (e.yLo + e.yHi) / 2, pl.bed⟩ else none
  | _, _ => none

/-! ## Axle computation (R151) -/

/-- The front and rear loads after a weight at an offset (R151). -/
def Plan.axle (pl : Plan) (w d : Nat) : Int × Int :=
  let rear := nearestUp (w * d) pl.wheelbase
  (pl.front + ((w : Int) - rear), pl.rear + rear)

/-- The five limits of R151. -/
def Plan.within (pl : Plan) (front rear : Int) : Bool :=
  decide (0 ≤ front) && decide (front ≤ pl.frontMax) && decide (rear ≤ pl.rearMax) && decide (front + rear ≤ pl.grossMax)
    && decide ((pl.share : Int) * (front + rear) ≤ 100 * front)

/-! ## Placement check (R150) -/

/-- A placement is INCOMING, but not for this crane (R150). -/
def PlacementState.incomingOther (c : Fin 4) : PlacementState → Bool
  | .incoming c' => c' != c
  | _ => false

/-- A placement is PLANNED, or INCOMING for this crane and so judged as PLANNED (R150). -/
def PlacementState.plannedFor (c : Fin 4) : PlacementState → Bool
  | .planned => true
  | .incoming c' => c' == c
  | .placed _ => false

/-- The index of the first PLANNED placement, as judged for a crane (R150). -/
def Plan.firstPlanned (pl : Plan) (c : Fin 4) : Nat := pl.placements.findIdx fun q => q.state.plannedFor c

/-- The placement check of PLACE BAYPOS (b, k) for a crane with a coil (R150). -/
def Part.placementCheck (p : Part) (b : Fin 6) (k : Nat) (c : Fin 4) (coil : Coil) : Option Reason :=
  match (p.bay b).plan with
  | none => some .badLocation
  | some pl =>
    match pl.placement k with
    | none => some .badLocation
    | some q =>
      let st := (p.bay b).state
      if !(st == .ready || st == .loading) then some .bayNotReady
      else if pl.placements.any fun q => q.state.incomingOther c then some .bayBusy
      else if !q.state.plannedFor c || (pl.strict && pl.firstPlanned c != k) then some .planOrder
      else if q.expected.isSome && q.expected != coil.id then some .coilMismatch
      else if coil.quality != .good then some .weightUnproven
      else if !(pl.within (pl.axle coil.weight q.offset).1 (pl.axle coil.weight q.offset).2) then some .axleLimit
      else none

/-- The part with a bay's plan changed. -/
def Part.onPlan (p : Part) (b : Fin 6) (f : Plan → Plan) : Part :=
  p.setBay b { p.bay b with plan := (p.bay b).plan.map f }

/-- The placement becomes INCOMING for a crane (R152). -/
def Part.bindPlacement (p : Part) (b : Fin 6) (k : Nat) (c : Fin 4) : Part :=
  p.onPlan b fun pl => pl.setPlacement k (.incoming c)

/-- Whether a placement is INCOMING for a crane (R153). -/
def Part.placementIncoming (p : Part) (b : Fin 6) (k : Nat) (c : Fin 4) : Bool :=
  ((p.bay b).plan.bind fun pl => pl.placement k).any fun q => q.state == .incoming c

/-- An INCOMING placement returns to PLANNED when its destination is cleared (R152). -/
def Part.revertPlacement (p : Part) (b : Fin 6) (k : Nat) (c : Fin 4) : Part :=
  if p.placementIncoming b k c then p.onPlan b fun pl => pl.setPlacement k .planned else p

/-- The commit of a set-down, steps 1 to 4 (R153). -/
def Plan.commit (pl : Plan) (k : Nat) (coil : Coil) (scale : Bool) : Plan :=
  let d := (pl.placement k).elim 0 Placement.offset
  let (front, rear) := pl.axle coil.weight d
  let pl := pl.setPlacement k (.placed coil)
  { pl with front := front, rear := rear, placedCount := pl.placedCount + 1, scalePending := pl.scalePending || scale }

/-! ## The cab area (R155) -/

/-- A point lies in a bay's cab area (R155). -/
def BayEntry.inCab (e : BayEntry) (x y : Nat) : Bool :=
  let inX := match e.front with
    | .east => decide (e.axle ≤ x) && decide (x ≤ e.axle + e.cab)
    | .west => decide (e.axle ≤ x + e.cab) && decide (x ≤ e.axle)
  inX && decide (e.yLo ≤ y) && decide (y ≤ e.yHi)

/-- A point lies in the cab area of some configured bay that is not EMPTY (R155). -/
def Part.inCabArea (p : Part) (x y : Nat) : Bool :=
  bayList.any fun b => (p.bayEntry b).configured && (p.bay b).state != .empty && (p.bayEntry b).inCab x y

/-! ## Bay facts (R144, R145) -/

/-- A truck is present: the last report says so (R144). -/
def BayRecord.present (r : BayRecord) : Bool := r.last.any Report.present

/-- The truck is matched (R145). -/
def BayRecord.matched (r : BayRecord) (pl : Plan) : Bool :=
  match pl.truck with
  | none => true
  | some id => r.last.any fun rep => rep.truck == some id

/-- The state derived from a bay's facts, in the order of R144. -/
def BayRecord.derived (r : BayRecord) : BayState :=
  if !r.present then .empty
  else
    match r.plan with
    | none => .arrived
    | some pl =>
      if r.causes.any then .paused
      else if !(r.last.any Report.inPosition) || !r.matched pl then .arrived
      else if pl.placedCount = 0 then .ready
      else if pl.placedCount < pl.placements.length then .loading
      else .complete

/-- READY, LOADING or COMPLETE (R147). -/
def BayState.working : BayState → Bool
  | .ready => true
  | .loading => true
  | .complete => true
  | _ => false

end Sys2Proof.Machine
end

