-- ==== Sys2Proof/Machine/Stops.lean ====
section
/-! DEFINITION. How an active order ends (R64), claims are withdrawn (R29), and the stop latch takes and loses causes (R66 to
R69). -/

namespace Sys2Proof.Machine

/-- An order is active in WAITING, PARTIAL and FORWARDED (R34, R54). -/
def Order.active (o : Order) : Bool := o.state != .ended

/-- The crane's active order, if any (R54). -/
def Part.activeOrder (p : Part) (c : Fin 4) : Option Order := (p.order c).filter Order.active

/-! ## Claims withdrawn -/

/-- A zone without a crane's claim on its waiter list (R29). -/
def Zone.dropWaiter (z : Zone) (c : Fin 4) : Zone := { z with waiters := z.waiters.filter fun w => w.crane != c }

/-- A crane's claim leaves its claim field and its zone's waiter list (R29). -/
def Part.withdrawClaim (p : Part) (c : Fin 4) : Part :=
  match p.claim c with
  | none => p
  | some cl => (p.setZone cl.zone ((p.zone cl.zone).dropWaiter c)).setClaim c none

/-! ## Source and destination cleared -/

/-- A hook's source is cleared and its owner reverts it (R64, R90, R107). -/
def Part.clearSource (p : Part) (c : Fin 4) : Part :=
  match (p.hook c).source with
  | none => p
  | some s =>
    let p := p.setHook c { p.hook c with source := none }
    match s.place with
    | .slot i => p.onSlots fun m => m.revertSource i c
    | .entry _ _ => p

/-- A hook's destination is cleared and its owner reverts it (R64, R111, R152). -/
def Part.clearDest (p : Part) (c : Fin 4) : Part :=
  match (p.hook c).dest with
  | none => p
  | some d =>
    let p := p.setHook c { p.hook c with dest := none }
    match d.place with
    | .slot i => p.revertSlotDest i c
    | .bayPos b k => p.revertPlacement b k c

/-! ## The end of an active order (R64) -/

/-- A crane's pending command leaves the order of those that wait (R61, R64). -/
def Part.dropTurn (p : Part) (c : Fin 4) : Part :=
  { p with gate := { p.gate with pendingTurn := p.gate.pendingTurn.filter fun d => d != c } }

/-- The destination on the hook was set for this order: a PLACE in FORWARDED whose LOWER_AT is no longer pending (R62, R64, log 16). -/
def Order.setDest (o : Order) : Bool := o.kind == .place && o.state == .forwarded && o.pending.isNone

/-- Every end of an active order, in the order of R64. `complete` tells a DONE COMPLETE, which leaves the destination on the
hook. -/
def Part.endOrder (p : Part) (c : Fin 4) (complete : Bool) (v : Option (VerdictKind × Option Reason)) : Part :=
  match p.activeOrder c with
  | none => p
  | some o =>
    let p := p.setOrder c (some { o with state := .ended, pending := none })
    let p := p.dropTurn c
    let p := p.withdrawClaim c
    let p := p.onLink (Link.removeCommands c)
    let p := if (p.hook c).state == .empty then p.clearSource c else p
    let p := if o.setDest && !complete then p.clearDest c else p
    match v with
    | some (kind, reason) => p.orderVerdict c o kind reason
    | none => p

/-! ## Outputs -/

/-- An output's commanded level; a change of it starts the check delay (R72). -/
def OutLine.command (o : OutLine) (on : Bool) : OutLine :=
  if o.commanded = on then o else { o with commanded := on, delay := some 0 }

/-- A crane's stop line is commanded (R67). -/
def Part.commandStop (p : Part) (c : Fin 4) (on : Bool) : Part :=
  { p with lines := { p.lines with stop := p.lines.stop.set c (p.lines.stop[c].command on) } }

/-! ## The stop latch -/

/-- A stop request that carries a bay keeps it in the bay set of BAY_DRIVER (R66). -/
def Latch.addBay (l : Latch) (cause : StopCause) (bay : Option (Fin 6)) : Latch :=
  match cause, bay with
  | .bayDriver, some b => { l with bays := BaySet.put l.bays b true }
  | _, _ => l

/-- A stop request to a crane's latch (R66). -/
def Part.requestStop (p : Part) (c : Fin 4) (cause : StopCause) (bay : Option (Fin 6)) : Part :=
  if !(p.entry c).configured then p
  else if (p.latch c).causes.has cause then p.setLatch c ((p.latch c).addBay cause bay)
  else
    let causes := (p.latch c).causes.put cause true
    let p := p.setLatch c ({ p.latch c with causes := causes }.addBay cause bay)
    let p := p.commandStop c true
    let p := p.onLink (Link.putStop c causes)
    let p := p.onLink (Link.removeCommands c)
    let p := p.endOrder c false (some (.aborted, none))
    p.notify .stopSet c.val cause.code causes.flags (bay.elim 255 Fin.val)

/-- What follows when a release or the entry into RUN leaves a crane's latch empty: the stop line inactive, an unsent STOP
removed, STOP_CLEARED with 1 RELEASE or 2 RUN_ENTRY (R68, R69). -/
def Part.latchCleared (p : Part) (c : Fin 4) (why : Nat) : Part :=
  ((p.commandStop c false).onLink (Link.removeStop c)).notify .stopCleared c.val why 0 0

/-- A cause leaves a crane's latch; the bay set goes with BAY_DRIVER (R68). -/
def Part.dropCause (p : Part) (c : Fin 4) (cause : StopCause) : Part :=
  let l := p.latch c
  p.setLatch c { causes := l.causes.put cause false, bays := if cause = .bayDriver then BaySet.none else l.bays }

/-- A configured-field change empties the latch without a notice (R67). -/
def Part.emptyLatch (p : Part) (c : Fin 4) : Part :=
  ((p.setLatch c Latch.reset).commandStop c false).onLink (Link.removeUrgent c)

end Sys2Proof.Machine
end

