-- ==== Sys2Proof/Machine/Zones.lean ====
section
/-! DEFINITION. The zone arbiter and the zone step of the order gate: claims (R28), facing claims and give-way (R36 to R39),
travel speed (R48), the zone step (R58 to R60), forwarding (R61, R62), the grant order (R30), envelopes, auto-extension and
release (R31 to R35). -/

namespace Sys2Proof.Machine

/-! ## Grants -/

/-- A run with a zone added at the end it adjoins (R26). -/
def Run.extend (r : Run) (k : Nat) : Run :=
  if k = r.hi + 1 then { r with hi := k } else if k + 1 = r.lo then { r with lo := k } else r

/-- A zone is granted to a crane: its grant field and the crane's run change together (R26). -/
def Part.give (p : Part) (c : Fin 4) (k : Nat) : Part :=
  let p := p.setZone k { p.zone k with grant := some c }
  p.setRun c (some (match p.run c with | some r => r.extend k | none => ⟨k, k⟩))

/-- A zone may be newly given to a crane with the hook it has (R47). -/
def Zone.permits (z : Zone) (h : Hook) : Bool := z.loaded || !h.loaded

/-- The zone directly beyond one end of a crane's grant, if there is one (R28 step 3). -/
def Part.beyond (p : Part) (c : Fin 4) (d : Direction) : Option Nat :=
  match p.run c with
  | none => none
  | some r =>
    match d with
    | .east => if (p.zone (r.hi + 1)).defined then some (r.hi + 1) else none
    | .west => if r.lo = 0 then none else some (r.lo - 1)

/-! ## Travel speed (R48) -/

/-- A zone's speed cap is nonzero and in force (R48). -/
def Part.capInForce (p : Part) (z : Zone) : Bool :=
  z.cap != 0 && (match z.bay with
    | none => true
    | some b => (p.bayEntry b).configured && (p.bay b).state != .empty)

/-- The lowest cap in force on the zones of a path (R48). -/
def Part.lowestCap (p : Part) (a b : Nat) : Option Nat :=
  zoneList.foldl (fun best k =>
    if decide (min a b ≤ k) && decide (k ≤ max a b) && p.capInForce (p.zone k) then
      some (match best with | some m => min m (p.zone k).cap | none => (p.zone k).cap)
    else best) none

/-- The travel speed of a crane from its recorded x to a destination x (R48). -/
def Part.travelSpeed (p : Part) (c : Fin 4) (x speed : Nat) : Nat :=
  let v := match p.lowestCap (p.zoneOf (p.craneX c)) (p.zoneOf x) with
    | some cap => if speed = 0 then cap else min speed cap
    | none => if speed = 0 then (p.entry c).vmax else speed
  min v (p.entry c).vmax

/-! ## Give-way (R38, R39) -/

/-- The station of a crane. -/
def craneStation (c : Fin 4) : Byte := BitVec.ofNat 8 (c.val + 1)

/-- A give-way is attempted: permitted, no stop cause, drive state READY or MOVING (R38). -/
def Part.giveWayAttempted (p : Part) (y : Fin 4) : Bool :=
  (p.entry y).giveWay && !(p.latch y).causes.any
    && (p.record y).last.any fun t => t.drive == .ready || t.drive == .moving

/-- The give-way target of a yielding crane for the contested zone (R38). -/
def Part.giveWayTarget (p : Part) (y other : Fin 4) (zone : Nat) : Int :=
  let e := p.entry y
  if y < other then ((p.zone zone).start : Int) - e.eastExt - e.margin - 1
  else (p.zoneEnd zone : Int) + e.westExt + e.margin

/-- The zones a give-way's span covers: all of the grant, and at most the one beyond the end away from the contested zone.
The answer is that further zone, if the span needs it (R38). -/
def Part.giveWayZones (p : Part) (y other : Fin 4) (x : Int) : Option (Option Nat) :=
  match p.run y with
  | none => none
  | some r =>
    let a := p.zoneOf (p.span y x).1
    let b := p.zoneOf (p.span y x).2
    if y < other then
      if r.hi < b then none else if r.lo ≤ a then some none else if a + 1 = r.lo then some (some a) else none
    else
      if a < r.lo then none else if b ≤ r.hi then some none else if b = r.hi + 1 then some (some b) else none

/-- The give-way of a yielding crane, when it is attempted and possible (R38, R39). -/
def Part.giveWay (p : Part) (y other : Fin 4) (zone : Nat) : Part :=
  let x := p.giveWayTarget y other zone
  if !p.giveWayAttempted y || decide (x < 0) || decide ((p.params.length : Int) ≤ x) || !p.link.normalRoom then p
  else
    match p.giveWayZones y other x with
    | none => p
    | some further =>
      let free := match further with
        | none => true
        | some k => (p.zone k).grantable && (p.zone k).permits (p.hook y)
      if !free then p
      else
        let p := match further with
          | none => p
          | some k => p.give y k
        let cmd : Command := ⟨.moveTo, x.toNat, p.craneY y, (p.entry y).zSafe, 0⟩
        let p := p.onLink (Link.pushNormal (.giveWay y) (craneStation y) .moveTo
          (commandPayload 0 cmd (p.travelSpeed y x.toNat 0)))
        p.notify .giveWay y.val x.toNat other.val zone

/-! ## Claims (R28, R36, R37) -/

/-- The arbiter's answers to a claim request (R28). -/
inductive ClaimAnswer where
  | granted
  | wait
  | refused (r : Reason)
  | noZone
  | yielded
deriving DecidableEq, Repr

/-- The neighbour whose claim faces the claim that crane `i` has on zone `k` (R36). -/
def Part.facing (p : Part) (i : Fin 4) (k : Nat) : Option (Fin 4) :=
  match (p.zone k).grant with
  | none => none
  | some j =>
    if j = i then none
    else
      match p.claim j with
      | none => none
      | some cl => if (p.zone cl.zone).grant = some i then some j else none

/-- Two facing claims are resolved, in the order of R37: `y` yields, `i` is the crane whose claim joined. -/
def Part.resolveFacing (p : Part) (i j y : Fin 4) (contested : Nat) : Part :=
  let other := if y = i then j else i
  let p := p.withdrawClaim y
  let p := p.endOrder y false (some (.yielded, none))
  let p := p.notify .deadlock i.val j.val y.val contested
  p.giveWay y other contested

/-- The claim joins the tail of the zone's waiter list and the crane's claim field (R28 step 7). -/
def Part.joinClaim (p : Part) (c : Fin 4) (k : Nat) (cls : ClaimClass) : Part :=
  let z := p.zone k
  (p.setZone k { z with waiters := z.waiters ++ [⟨c, cls, .order⟩] }).setClaim c (some ⟨k, cls, .order⟩)

/-- A claim that joined a list meets the facing check (R36): of equal classes the later, `c`'s, yields. -/
def Part.afterJoin (p : Part) (c : Fin 4) (k : Nat) (cls : ClaimClass) : Part × ClaimAnswer :=
  match p.facing c k with
  | none => (p, .wait)
  | some j =>
    match p.claim j with
    | none => (p, .wait)
    | some cj =>
      if cls.rank ≤ cj.cls.rank then (p.resolveFacing c j c cj.zone, .yielded)
      else (p.resolveFacing c j j k, .wait)

/-- A claim request from the order gate (R28). -/
def Part.claimRequest (p : Part) (c : Fin 4) (d : Direction) (cls : ClaimClass) : Part × ClaimAnswer :=
  if p.mgmt.mode ≠ .run then (p, .refused .wrongMode)
  else
    let p := p.withdrawClaim c
    match p.beyond c d with
    | none => (p, .noZone)
    | some k =>
      let z := p.zone k
      if z.blocked then (p, .refused .zoneBlocked)
      else if !z.permits (p.hook c) then (p, .refused .zoneForbidsLoad)
      else if z.grantable then (p.give c k, .granted)
      else (p.joinClaim c k cls).afterJoin c k cls

/-! ## Checks 7 to 10 of R55 -/

/-- Check 7: the hook fits (R55). -/
def hookFits (k : OrderKind) (h : Hook) : Bool :=
  match k with
  | .pick => h.state == .empty
  | .place => h.state == .weighed
  | .goto => true
  | .park => true

/-- Check 8: the owner of the location passes (R55). -/
def Part.ownerCheck (p : Part) (c : Fin 4) (k : OrderKind) (loc : Option Location) : Option Reason :=
  match k, loc with
  | .pick, some (.slot s) => p.slots.pickCheck s
  | .place, some (.slot s) =>
    match (p.hook c).coil with
    | some coil => p.slots.placeCheck s c coil
    | none => some .hookState
  | .place, some (.bayPos b k) =>
    match bayOf b, (p.hook c).coil with
    | some b, some coil => p.placementCheck b k c coil
    | none, _ => some .badLocation
    | _, none => some .hookState
  | _, _ => none

/-- Checks 7 and 8 in their order: the hook and the owner of the location (R55). -/
def Part.placeChecks (p : Part) (c : Fin 4) (k : OrderKind) (loc : Option Location) : Option Reason :=
  if !hookFits k (p.hook c) then some .hookState else p.ownerCheck c k loc

/-- Checks 9 and 10 in their order: the cab areas and the hold of the target's zone (R55). -/
def Part.targetChecks (p : Part) (c : Fin 4) (k : OrderKind) (t : Point) : Option Reason :=
  if (p.hook c).loaded && p.inCabArea t.x t.y then some .cabArea
  else if (k == .pick || k == .place) && (p.zone (p.zoneOf t.x)).held then some .zoneHeld
  else none

/-- Checks 7 to 10 in their order; the first that fails gives the reason (R55). -/
def Part.orderChecks (p : Part) (c : Fin 4) (k : OrderKind) (loc : Option Location) (t : Point) : Option Reason :=
  match p.placeChecks c k loc with
  | some r => some r
  | none => p.targetChecks c k t

/-! ## Forwarding (R61, R62) -/

/-- The owner's transition and the hook's source at the forwarding of a LIFT_AT (R62, R105). -/
def Part.bindSource (p : Part) (c : Fin 4) (o : Order) : Part :=
  match o.loc with
  | some (.slot s) =>
    (p.onSlots fun m => m.lift s c).setHook c { p.hook c with source := some ⟨.slot s, o.tag⟩ }
  | some (.entry e) =>
    match o.data with
    | some d => p.setHook c { p.hook c with source := some ⟨.entry e d, o.tag⟩ }
    | none => p
  | _ => p

/-- The owner's transition and the hook's destination at the forwarding of a LOWER_AT (R62, R109, R152). -/
def Part.bindDest (p : Part) (c : Fin 4) (o : Order) : Part :=
  match o.loc, (p.hook c).coil with
  | some (.slot s), some coil =>
    (p.onSlots fun m => m.lower s c coil p.reservationExpiry).setHook c
      { p.hook c with dest := some ⟨.slot s, o.target.x, o.target.y⟩ }
  | some (.bayPos b k), some _ =>
    match bayOf b with
    | some b => (p.bindPlacement b k c).setHook c { p.hook c with dest := some ⟨.bayPos b k, o.target.x, o.target.y⟩ }
    | none => p
  | _, _ => p

/-- A crane command of an order enters NORMAL: its sequence becomes the order's last command sequence, and a final command
gives PASSED (R59, R61, R62). -/
def Part.sendCommand (p : Part) (c : Fin 4) (o : Order) (cmd : Command) : Part :=
  let seq := p.link.seq
  let p := p.onLink (Link.pushNormal (.command c) (craneStation c) cmd.verb.kind
    (commandPayload o.tag cmd (p.travelSpeed c cmd.x o.speed)))
  let o := { o with lastSeq := some seq, lastDone := false, pending := none }
  let p := p.setOrder c (some o)
  if o.state == .forwarded then p.orderVerdict c o .passed none else p

/-- The forwarding of a LIFT_AT or LOWER_AT, with `bind` the owner's transition and the hook's source or destination. The destination
of an earlier order is cleared; checks 7 and 8 are repeated; the owner makes its transition in the request that passes check 8; and
then come checks 9 and 10. A check that fails ends the order, which reverts a transition already made (R62, R64; log 16). -/
def Part.forwardAt (p : Part) (c : Fin 4) (o : Order) (cmd : Command) (bind : Part → Part) : Part :=
  let p := p.clearDest c
  match p.placeChecks c o.kind o.loc with
  | some r => p.endOrder c false (some (.refused, some r))
  | none =>
    let p := bind p
    match p.targetChecks c o.kind o.target with
    | some r => p.endOrder c false (some (.refused, some r))
    | none => p.sendCommand c o cmd

/-- A prepared command leaves the order's record and is forwarded into NORMAL, a LIFT_AT or LOWER_AT through its forwarding check (R61,
R62). -/
def Part.forwardCommand (p : Part) (c : Fin 4) (cmd : Command) : Part :=
  match p.activeOrder c with
  | none => p
  | some o =>
    let o := { o with pending := none }
    let p := p.setOrder c (some o)
    match cmd.verb with
    | .moveTo => p.sendCommand c o cmd
    | .liftAt => p.forwardAt c o cmd fun p => p.bindSource c o
    | .lowerAt => p.forwardAt c o cmd fun p => p.bindDest c o

/-- A prepared command is queued at once when NORMAL has room, in place of an older one of its order that is pending; a command
prepared while NORMAL is full becomes the record's pending command, at the place its order has or at the end (R61; that the former
drops an older pending one of its order is log 20's reading). -/
def Part.prepare (p : Part) (c : Fin 4) (cmd : Command) : Part :=
  if p.link.normalRoom then (p.dropTurn c).forwardCommand c cmd
  else
    match p.order c with
    | none => p
    | some o =>
      let p := p.setOrder c (some { o with pending := some cmd })
      { p with gate := { p.gate with
          pendingTurn := if p.gate.pendingTurn.contains c then p.gate.pendingTurn else p.gate.pendingTurn ++ [c] } }

/-- The order's own command (R62). -/
def Part.finalCommand (p : Part) (c : Fin 4) (o : Order) : Command :=
  let z := (p.entry c).zSafe
  match o.kind with
  | .goto => ⟨.moveTo, o.target.x, o.target.y, z, 0⟩
  | .park => ⟨.moveTo, o.target.x, o.target.y, z, 0⟩
  | .pick => ⟨.liftAt, o.target.x, o.target.y, o.target.z, z⟩
  | .place => ⟨.lowerAt, o.target.x, o.target.y, o.target.z, z⟩

/-- The MOVE_TO of a partial step; PICK and PLACE keep the trolley where it is (R62). -/
def Part.partialCommand (p : Part) (c : Fin 4) (o : Order) (x : Nat) : Command :=
  let y := match o.kind with
    | .goto => o.target.y
    | .park => o.target.y
    | .pick => p.craneY c
    | .place => p.craneY c
  ⟨.moveTo, x, y, (p.entry c).zSafe, 0⟩

/-! ## The zone step (R58 to R60) -/

/-- The needed zones of an order: z of the west end of its needed span up to z of the east end (R58). -/
def Part.neededZones (p : Part) (c : Fin 4) (o : Order) : Nat × Nat :=
  (p.zoneOf (p.span c o.target.x).1, p.zoneOf (p.span c o.target.x).2)

/-- How the claiming of a zone step ends (R58). -/
inductive ClaimEnd where
  | done
  | waits
  | refused (r : Reason)
  | yielded
deriving DecidableEq, Repr

/-- A needed zone lies beyond this end of the grant (R58). -/
def Part.wants (p : Part) (c : Fin 4) (d : Direction) (bound : Nat) : Bool :=
  match p.run c with
  | none => true
  | some r =>
    match d with
    | .east => decide (r.hi < bound)
    | .west => decide (bound < r.lo)

/-- Claim requests in one direction, one zone at a time, while a needed zone lies beyond that end; at most one request per
zone of the runway (R58). -/
def Part.claimToward : Nat → Part → Fin 4 → Direction → ClaimClass → Nat → Part × ClaimEnd
  | 0, p, _, _, _, _ => (p, .waits)
  | n + 1, p, c, d, cls, bound =>
    if !p.wants c d bound then (p, .done)
    else
      match p.claimRequest c d cls with
      | (p, .granted) => Part.claimToward n p c d cls bound
      | (p, .wait) => (p, .waits)
      | (p, .refused r) => (p, .refused r)
      | (p, .noZone) => (p, .waits)
      | (p, .yielded) => (p, .yielded)

/-- The claiming of a zone step: the first direction, then the other (R58). -/
def Part.claiming (p : Part) (c : Fin 4) (o : Order) : Part × ClaimEnd :=
  let (lo, hi) := p.neededZones c o
  let (d1, b1, d2, b2) : Direction × Nat × Direction × Nat :=
    if o.target.x < p.craneX c then (.west, lo, .east, hi) else (.east, hi, .west, lo)
  match p.claimToward 33 c d1 o.cls b1 with
  | (p, .done) => p.claimToward 33 c d2 o.cls b2
  | r => r

/-- The candidate of a step with part of the span granted: T set to the nearer bound of the grant range; none when that range
is empty (R59). -/
def Part.candidate (p : Part) (c : Fin 4) (o : Order) : Option Nat :=
  match p.run c with
  | none => none
  | some r =>
    let e := p.entry c
    let lo : Int := (p.zone r.lo).start + e.westExt + e.margin + e.allowance
    let hi : Int := (p.zoneEnd r.hi : Int) - 1 - e.eastExt - e.margin - e.allowance
    if hi < lo then none else some (max lo (min hi o.target.x)).toNat

/-- The step makes progress: the candidate lies strictly on T's side of the recorded x and not beyond T (R59). -/
def progress (x t cand : Nat) : Bool :=
  (decide (x < cand) && decide (cand ≤ t)) || (decide (cand < x) && decide (t ≤ cand))

/-- Every needed zone is in the grant (R58, R59). -/
def Part.wholeSpan (p : Part) (c : Fin 4) (o : Order) : Bool :=
  match p.run c with
  | none => false
  | some r => decide (r.lo ≤ (p.neededZones c o).1) && decide ((p.neededZones c o).2 ≤ r.hi)

/-- No progress (R59, R60): the permitted x becomes the recorded x; an opening step gives HELD; a refusal clamps a PARTIAL
order, or ends it when its last MOVE_TO is done, and ends a WAITING order REFUSED. -/
def Part.noProgress (p : Part) (c : Fin 4) (o : Order) (opening : Bool) (refusal : Option Reason) : Part :=
  let o := { o with permitted := p.craneX c, short := refusal.or o.short }
  let p := p.setOrder c (some o)
  match refusal with
  | none => if opening then p.orderVerdict c o .held none else p
  | some r =>
    if o.state == .partly then
      let p := p.orderVerdict c o .clamped (some r)
      if o.lastDone then p.endOrder c true none else p
    else p.endOrder c false (some (.refused, some r))

/-- The claiming has ended: the permitted x, the command to forward and the verdict (R59, R60). -/
def Part.afterClaims (p : Part) (c : Fin 4) (opening : Bool) (refusal : Option Reason) : Part :=
  match p.activeOrder c with
  | none => p
  | some o =>
    if p.wholeSpan c o && refusal.isNone then
      let o := { o with permitted := o.target.x, state := .forwarded }
      (p.setOrder c (some o)).prepare c (p.finalCommand c o)
    else
      match p.candidate c o with
      | none => p.noProgress c o opening refusal
      | some cand =>
        if progress (p.craneX c) o.target.x cand then
          let o := { o with permitted := cand, state := .partly, short := refusal.or o.short }
          let p := (p.setOrder c (some o)).prepare c (p.partialCommand c o cand)
          match refusal with
          | some r => p.orderVerdict c o .clamped (some r)
          | none => if opening then p.orderVerdict c o .clamped none else p
        else p.noProgress c o opening refusal

/-- The zone step of a crane's active order (R58, R59). -/
def Part.zoneStep (p : Part) (c : Fin 4) (opening : Bool) : Part :=
  match p.activeOrder c with
  | none => p
  | some o =>
    match p.claiming c o with
    | (p, .yielded) => p
    | (p, .refused r) => p.afterClaims c opening (some r)
    | (p, _) => p.afterClaims c opening none

/-! ## The arbiter's reports (R61) and the grant order (R30) -/

/-- GRANTED for a crane: a WAITING or PARTIAL order runs the zone step again (R61). -/
def Part.reportGranted (p : Part) (c : Fin 4) : Part :=
  match p.activeOrder c with
  | some o => if o.state == .waiting || o.state == .partly then p.zoneStep c false else p
  | none => p

/-- REFUSED for a crane's waiting claim: R60 applies (R61). -/
def Part.reportRefused (p : Part) (c : Fin 4) (r : Reason) : Part := p.afterClaims c false (some r)

/-- The first candidate: the highest class, and of equal class the one that joined earlier (R30). -/
def bestWaiter (ws : List Waiter) : Option Waiter :=
  ws.foldl (fun best w =>
    match best with
    | none => some w
    | some b => if b.cls.rank < w.cls.rank then some w else some b) none

/-- The grant order on a zone's waiters; it stops at the first grant (R30). -/
def Part.grantOrder : Nat → Part → Nat → Part
  | 0, p, _ => p
  | n + 1, p, k =>
    match bestWaiter (p.zone k).waiters with
    | none => p
    | some w =>
      let zone := p.zone k
      let p := p.withdrawClaim w.crane
      if zone.permits (p.hook w.crane) then (p.give w.crane k).reportGranted w.crane
      else Part.grantOrder n (p.reportRefused w.crane .zoneForbidsLoad) k

/-- A zone that became FREE, or whose hold ended, is handed to its waiters when it is FREE, not HELD and not blocked (R30,
R41, R42, R43). -/
def Part.handOn (p : Part) (k : Nat) : Part :=
  if (p.zone k).grantable then Part.grantOrder (p.zone k).waiters.length p k else p

/-! ## Auto-extension and intrusion (R32, R33) -/

/-- Auto-extension beyond one end up to a zone; an end that stops short requests INTRUSION (R32, R33). -/
def Part.autoExtend : Nat → Part → Fin 4 → Direction → Nat → Part
  | 0, p, _, _, _ => p
  | n + 1, p, c, d, bound =>
    match p.run c with
    | none => p
    | some r =>
      let k := match d with | .east => r.hi + 1 | .west => r.lo - 1
      let reached := match d with | .east => decide (r.hi < bound) | .west => decide (bound < r.lo)
      if !reached then p
      else if (p.zone k).grantable && (p.zone k).permits (p.hook c) then Part.autoExtend n (p.give c k) c d bound
      else p.requestStop c .intrusion none

/-! ## Release (R34, R35) -/

/-- The zones an active order keeps beyond the cover (R34). -/
def Part.keptByOrder (p : Part) (c : Fin 4) (cover : Nat × Nat) (k : Nat) : Bool :=
  match p.activeOrder c with
  | none => false
  | some o =>
    let a := p.zoneOf (p.span c o.permitted).1
    let b := p.zoneOf (p.span c o.permitted).2
    (decide (a ≤ k) && decide (k ≤ b))
      || (if p.craneX c ≤ o.target.x then decide (cover.2 < k) && decide (k ≤ b) else decide (k < cover.1) && decide (a ≤ k))

/-- The zones of the grant that release keeps: those the envelope covers, those the order needs, and, when there are none of
either, the zone of the grant nearest to the envelope (R34, R35). -/
def Part.keptZones (p : Part) (c : Fin 4) (cover : Nat × Nat) (r : Run) : List Nat :=
  let kept := zoneList.filter fun k => decide (r.lo ≤ k) && decide (k ≤ r.hi)
    && ((decide (cover.1 ≤ k) && decide (k ≤ cover.2)) || p.keptByOrder c cover k)
  if kept.isEmpty then [if r.hi < cover.1 then r.hi else r.lo] else kept

/-- The outermost zone at one end leaves the grant run, becomes FREE and is handed on (R35). -/
def Part.releaseOne (p : Part) (c : Fin 4) (d : Direction) (r : Run) : Part :=
  let k := match d with | .east => r.hi | .west => r.lo
  let rest : Option Run :=
    if r.lo = r.hi then none else some (match d with | .east => ⟨r.lo, r.hi - 1⟩ | .west => ⟨r.lo + 1, r.hi⟩)
  ((p.setRun c rest).setZone k { p.zone k with grant := none }).handOn k

/-- Release at one end, from the outermost zone inward, up to the first kept zone (R35). -/
def Part.releaseEnd : Nat → Part → Fin 4 → Direction → List Nat → Part
  | 0, p, _, _, _ => p
  | n + 1, p, c, d, kept =>
    match p.run c with
    | none => p
    | some r =>
      let k := match d with | .east => r.hi | .west => r.lo
      if kept.contains k then p else Part.releaseEnd n (p.releaseOne c d r) c d kept

/-- Release at both ends, east then west, of the zones not kept when the envelope arrived (R31, R35; log 15). -/
def Part.release (p : Part) (c : Fin 4) (cover : Nat × Nat) : Part :=
  match p.run c with
  | none => p
  | some r =>
    let kept := p.keptZones c cover r
    Part.releaseEnd 32 (Part.releaseEnd 32 p c .east kept) c .west kept

/-- An envelope with its cover reaches the arbiter (R31). A stop that auto-extension requests ends the order before this envelope's
release, one of the two orders R31 allows: a DESIGN CHOICE (log 32). -/
def Part.takeEnvelope (p : Part) (c : Fin 4) (cover : Option (Nat × Nat)) : Part :=
  match p.mgmt.mode, cover with
  | .startup, _ => p
  | _, none => p
  | _, some (lo, hi) =>
    let p := Part.autoExtend 33 p c .east hi
    let p := Part.autoExtend 33 p c .west lo
    p.release c (lo, hi)

/-- The arbiter's answer whether a crane's stored envelope lies within its grant (R33). -/
def Part.withinGrant (p : Part) (c : Fin 4) : Bool :=
  match p.run c, (p.record c).envelope.bind Envelope.cover with
  | some r, some (lo, hi) => decide (r.lo ≤ lo) && decide (hi ≤ r.hi)
  | _, _ => false

end Sys2Proof.Machine
end

