-- ==== Sys2Proof/Machine/Tracker.lean ====
section
/-! DEFINITION. The crane tracker (01): the stopping envelope in five stages, the ordering check, position intake and the
stale expiry. -/

namespace Sys2Proof.Machine

/-! ## The stopping envelope (R15 to R20) -/

/-- Stage 1: the extrapolated position, before it is brought onto the runway (R16). -/
def extrapolate (x : Nat) (v : Int) (age : Nat) : Int :=
  let d : Int := ceilDiv (v.natAbs * age) 1000
  if v < 0 then (x : Int) - d else (x : Int) + d

/-- Stage 2: the stopping distance, reaction distance plus braking distance (R17). -/
def stoppingDistance (v : Int) (reaction decel : Nat) : Nat :=
  ceilDiv (v.natAbs * reaction) 1000 + ceilDiv (v.natAbs * v.natAbs) (2 * decel)

/-- Stages 3 and 4: structure, margin and stopping distance on the side of travel, both ends brought onto the runway (R18,
R19). -/
def CraneEntry.interval (e : CraneEntry) (length : Nat) (xNow : Nat) (v : Int) : Nat × Nat :=
  let d := stoppingDistance v e.reaction e.decel
  let west : Int := if v < 0 then d else 0
  let east : Int := if 0 < v then d else 0
  (clampTo (length - 1) ((xNow : Int) - e.westExt - west - e.margin),
    clampTo (length - 1) ((xNow : Int) + e.eastExt + east + e.margin))

/-- The envelope of a crane from its last accepted POSITION at an age, with its zone cover while the zone table tiles the
runway (R15 to R20). -/
def Part.envelopeAt (p : Part) (c : Fin 4) (t : Telegram) (age : Nat) : Envelope :=
  let e := p.entry c
  let xNow := clampTo (p.params.length - 1) (extrapolate t.x t.vx age)
  let (lo, hi) := e.interval p.params.length xNow t.vx
  ⟨lo, hi, if p.tiles then some (p.zoneOf lo, p.zoneOf hi) else none, p.now⟩

/-- The envelope is computed, stored, and handed with its cover to the arbiter (R15, R20). -/
def Part.computeEnvelope (p : Part) (c : Fin 4) (age : Nat) : Part :=
  match (p.record c).last with
  | none => p
  | some t =>
    let env := p.envelopeAt c t age
    (p.setRecord c { p.record c with envelope := some env }).takeEnvelope c env.cover

/-- A request for a crane's current envelope: computed for a TRACKED crane with its age capped at the stale limit, and not
computed otherwise (R15). -/
def Part.requestEnvelope (p : Part) (c : Fin 4) : Part :=
  match (p.record c).tracking, (p.record c).last with
  | .tracked, some t => p.computeEnvelope c (min (since p.now t.arrival) p.params.staleLimit)
  | _, _ => p

/-! ## Crane order (R13, R14) -/

/-- The nearest configured crane to the east. -/
def Part.eastOf (p : Part) (c : Fin 4) : Option (Fin 4) := p.configured.find? fun d => decide (c < d)

/-- The nearest configured crane to the west. -/
def Part.westOf (p : Part) (c : Fin 4) : Option (Fin 4) := p.configured.reverse.find? fun d => decide (d < c)

/-- The part with the crossed mark of the pair whose western crane is `w` set or cleared. -/
def Part.markPair (p : Part) (w : Fin 4) (on : Bool) : Part :=
  { p with tracker := { p.tracker with crossed := p.tracker.crossed.set w on } }

/-- The overlap of two cranes' structures in millimetres, negative when they stand clear (R13). -/
def Part.overlap (p : Part) (w e : Fin 4) : Int :=
  ((p.craneX w : Int) + (p.entry w).eastExt) - ((p.craneX e : Int) - (p.entry e).westExt)

/-- The ordering check of a pair (R13), with the stops of a crossed pair (R14). -/
def Part.checkPair (p : Part) (w e : Fin 4) : Part :=
  if (p.record w).tracking != .tracked || (p.record e).tracking != .tracked then p
  else
    let mark := p.tracker.crossed[w]
    let overlap := p.overlap w e
    if 0 ≤ overlap then
      let p := if mark then p else (p.markPair w true).notify .craneState w.val 4 e.val overlap.toNat
      (p.requestStop w .ordering none).requestStop e .ordering none
    else if mark then (p.markPair w false).notify .craneState w.val 5 e.val 0
    else p

/-- The ordering check of each pair that contains a crane; one that is not configured is in none (R1, R11 step 1, R13). R11 and R13 give
no order between its two pairs: the western pair is checked first, a DESIGN CHOICE (log 31). -/
def Part.checkOrdering (p : Part) (c : Fin 4) : Part :=
  if !(p.entry c).configured then p
  else
    let p := match p.westOf c with | some w => p.checkPair w c | none => p
    match p.eastOf c with | some e => p.checkPair c e | none => p

/-- The tracker's answer whether a crane is in order: no pair that contains it is marked (R14). -/
def Part.inOrder (p : Part) (c : Fin 4) : Bool :=
  !p.tracker.crossed[c] && (match p.westOf c with | some w => !p.tracker.crossed[w] | none => true)

/-! ## Position intake (R7 to R10) -/

/-- The gripper code of a telegram; a code that names no value is read as CLOSED (R8). -/
def readGripper : Nat → Gripper × Bool
  | 0 => (.opened, false)
  | 1 => (.closed, false)
  | _ => (.closed, true)

/-- The drive state code of a telegram; a code that names no value is read as FAULT (R8). -/
def readDrive : Nat → Drive × Bool
  | 0 => (.ready, false)
  | 1 => (.moving, false)
  | 2 => (.manual, false)
  | 3 => (.fault, false)
  | _ => (.fault, true)

/-- A velocity brought into −4,095 to +4,095 (R8). -/
def clampVelocity (v : Int) : Int := max (-4095) (min 4095 v)

/-- A telegram's fields brought into range, and whether any was changed (R8). -/
def bringIntoRange (length : Nat) (seq : Byte) (now : Time) (r : RawPosition) : Telegram × Bool :=
  let x := min r.x (length - 1)
  let z := min r.z 16383
  let vx := clampVelocity r.vx
  let vy := clampVelocity r.vy
  let (g, gBad) := readGripper r.gripper
  let (d, dBad) := readDrive r.drive
  (⟨seq, x, r.y, z, vx, vy, g, d, r.tag, now⟩,
    x != r.x || z != r.z || vx != r.vx || vy != r.vy || gBad || dBad)

/-- A POSITION of the right length is accepted: always from UNSEEN or STALE, and in TRACKED when its sequence is newer (R7). -/
def CraneRecord.accepts (r : CraneRecord) (seq : Byte) : Bool :=
  match r.tracking, r.last with
  | .tracked, some t => newer seq t.seq
  | _, _ => true

/-- The telegram is written into the record and the crane is TRACKED, with the notices TRACKED and DRIVE (R9, R10). -/
def Part.acceptTelegram (p : Part) (c : Fin 4) (t : Telegram) (clamped : Bool) : Part :=
  let r := p.record c
  let p := p.setRecord c
    { r with tracking := .tracked, last := some t, clamp := if clamped then bump r.clamp else r.clamp }
  let p := if r.tracking = .tracked then p else p.notify .craneState c.val 1 r.tracking.code t.seq.toNat
  match r.last with
  | some old => if old.drive = t.drive then p else p.notify .craneState c.val 3 old.drive.code t.drive.code
  | none => p

/-! ## Stale expiry (R12) -/

/-- A TRACKED crane's stale expiry has passed (R12). -/
def Part.staleDue (p : Part) (c : Fin 4) : Bool :=
  (p.record c).tracking == .tracked
    && (p.record c).last.any fun t => passed p.now (after t.arrival p.params.staleLimit)

/-- The crane becomes STALE and a stop is requested (R12). -/
def Part.becomeStale (p : Part) (c : Fin 4) : Part :=
  let r := p.record c
  let p := p.setRecord c { r with tracking := .stale, staleCount := bump r.staleCount }
  let p := p.notify .craneState c.val 2 (r.last.elim 0 fun t => t.arrival.toNat) p.params.staleLimit
  p.requestStop c .stale none

end Sys2Proof.Machine
end

