-- ==== Sys2Proof/Machine/BayControl.lean ====
section
/-! DEFINITION. What the bay controller does (07): bay holds, lamps, the derived state, the driver, plans, reports, the scale
check and the poll scan. -/

namespace Sys2Proof.Machine

/-- The bays that are configured, in index order (R137). -/
def Part.configuredBays (p : Part) : List (Fin 6) := bayList.filter fun b => (p.bayEntry b).configured

/-! ## The bay part of holds (R43) -/

/-- One zone of the mask gains the bay, when it is defined (R43, R135). -/
def Part.holdZone (p : Part) (b : Fin 6) (k : Nat) : Part :=
  if (p.zone k).defined then p.setZone k { p.zone k with bayHold := BaySet.put (p.zone k).bayHold b true } else p

/-- The bay part is set on every zone of a mask (R43). -/
def Part.setBayHold (p : Part) (b : Fin 6) (mask : ZoneMask) : Part :=
  zoneList.foldl (fun p k => if mask.getLsbD k then p.holdZone b k else p) p

/-- One zone loses the bay; a hold that thereby ends hands the zone on (R43). -/
def Part.unholdZone (p : Part) (b : Fin 6) (k : Nat) : Part :=
  if (p.zone k).bayHold[b] then
    (p.setZone k { p.zone k with bayHold := BaySet.put (p.zone k).bayHold b false }).handOn k
  else p

/-- The bay part is cleared from every zone of a mask (R43). -/
def Part.clearBayHold (p : Part) (b : Fin 6) (mask : ZoneMask) : Part :=
  zoneList.foldl (fun p k => if mask.getLsbD k then p.unholdZone b k else p) p

/-! ## Lamps (R157) -/

/-- The green command of a bay state (R157). -/
def BayState.green : BayState → Bool
  | .empty => true
  | .complete => true
  | _ => false

/-- The red command on entry to a bay state (R157). -/
def BayState.red : BayState → Bool
  | .arrived => true
  | .ready => true
  | .loading => true
  | .paused => true
  | _ => false

/-- A bay's lamps are commanded (R157). -/
def Part.commandLamps (p : Part) (b : Fin 6) (green red : Bool) : Part :=
  { p with lines := { p.lines with green := p.lines.green.set b (p.lines.green[b].command green),
                                   red := p.lines.red.set b (p.lines.red[b].command red) } }

/-! ## The derived state (R144) -/

/-- The state is derived once: a change takes the lamps with it and queues BAY_STATE (R144, R157). -/
def Part.deriveOnce (p : Part) (b : Fin 6) : Part :=
  let r := p.bay b
  let new := r.derived
  if new = r.state then p
  else
    let flashAt := if new = .paused then some (after p.now (p.bayEntry b).flashOn) else none
    let p := p.setBay b { r with state := new, flashAt := flashAt }
    (p.commandLamps b new.green new.red).notify .bayState b.val (1 + 256 * r.state.code) new.code r.causes.flags

/-- A bay's driver-safe input reads safe (R147). -/
def Part.driverSafe (p : Part) (b : Fin 6) : Bool := p.lines.driver[b].accepted == .active

/-- The location of an order or the destination of a hook lies in a bay. -/
def Location.inBay (l : Location) (b : Fin 6) : Bool :=
  match l with
  | .bayPos b' _ => b' == b.val
  | _ => false

/-- A crane's hook has a destination in a bay (R146, R147). -/
def Part.boundFor (p : Part) (c : Fin 4) (b : Fin 6) : Bool :=
  (p.hook c).dest.any fun d => match d.place with | .bayPos b' _ => b' == b | .slot _ => false

/-- A crane works in a bay: its active order is located there, or its hook is bound for it (R147). -/
def Part.worksIn (p : Part) (c : Fin 4) (b : Fin 6) : Bool :=
  ((p.activeOrder c).any fun o => o.loc.any fun l => l.inBay b) || p.boundFor c b

/-- What a driver out of the cab brings, steps 1 to 4 of R147; the cranes of step 4 from west to east, a DESIGN CHOICE (log 39). -/
def Part.driverOut (p : Part) (b : Fin 6) : Part :=
  let r := p.bay b
  let p := p.setBay b { r with rearmAt := none, causes := { r.causes with driver := true } }
  let p := p.setBayHold b (p.bayEntry b).mask
  p.configured.foldl (fun p c => if p.worksIn c b then p.requestStop c .bayDriver (some b) else p) p

/-- The state is derived; a bay that enters READY, LOADING or COMPLETE while its input is not safe is paused with DRIVER
(R144, R147). -/
def Part.derive (p : Part) (b : Fin 6) : Part :=
  let old := (p.bay b).state
  let p := p.deriveOnce b
  let new := (p.bay b).state
  if new != old && new.working && !p.driverSafe b then (p.driverOut b).deriveOnce b else p

/-- The filter reports that a configured bay's driver-safe input left the safe level (R147). -/
def Part.driverLeft (p : Part) (b : Fin 6) : Part :=
  let st := (p.bay b).state
  if st.working || st == .paused then (p.driverOut b).derive b
  else p.setBay b { p.bay b with rearmAt := none }

/-- The filter reports that the input returned to the safe level: with DRIVER, the re-arm wait starts (R148). -/
def Part.driverReturned (p : Part) (b : Fin 6) : Part :=
  if (p.bay b).causes.driver then
    p.setBay b { p.bay b with rearmAt := some (after p.now (p.bayEntry b).rearm) }
  else p

/-- The re-arm wait has expired: DRIVER and the hold go, and the state is derived (R148). -/
def Part.rearm (p : Part) (b : Fin 6) : Part :=
  let r := p.bay b
  let p := p.setBay b { r with rearmAt := none, causes := { r.causes with driver := false } }
  (p.clearBayHold b (p.bayEntry b).mask).derive b

/-! ## Plans -/

/-- A plan is discarded; the state is derived by the rule that discards it (R142; log 12). The PLACE orders end from west to east, a
DESIGN CHOICE (log 39). -/
def Part.discardPlan (p : Part) (b : Fin 6) : Part :=
  let r := p.bay b
  match r.plan with
  | none => p
  | some _ =>
    let p := p.setBay b
      { r with plan := none, noted := none, causes := { r.causes with discrepancy := false, stale := false } }
    craneList.foldl (fun p c =>
      if (p.activeOrder c).any fun o => o.kind == .place && o.loc.any fun l => l.inBay b then
        p.endOrder c false (some (.refused, some .badLocation))
      else p) p

/-- The truck id of the last report is judged against the plan (R145). -/
def Part.judgeTruck (p : Part) (b : Fin 6) : Part :=
  let r := p.bay b
  match r.plan with
  | none => p
  | some pl =>
    if r.matched pl then p.setBay b { r with noted := none }
    else
      match r.last.bind Report.truck with
      | none => p
      | some id =>
        if r.noted = some id then p
        else (p.setBay b { r with noted := some id }).notify .truckMismatch b.val (pl.truck.elim 0 BitVec.toNat) id.toNat 0

/-- A placement of the bay's plan is INCOMING (R140, R141). -/
def BayRecord.someIncoming (r : BayRecord) : Bool :=
  r.plan.any fun pl => pl.placements.any fun q => match q.state with | .incoming _ => true | _ => false

/-- Every field of a plan lies in its range, and the expected ids that are present are all different (R140). -/
def Plan.inRange (pl : Plan) : Bool :=
  let ids := pl.placements.filterMap Placement.expected
  decide (2000 ≤ pl.wheelbase) && decide (pl.wheelbase ≤ 15000) && decide (pl.bed ≤ 16383) && decide (pl.share ≤ 50)
    && decide (1 ≤ pl.placements.length) && decide (pl.placements.length ≤ 6)
    && (pl.placements.all fun q => decide (q.offset ≤ 20000)) && decide ids.Nodup

/-- A PLAN_LOAD frame (R140). -/
def servePlanLoad (f : Frame) (p : Part) : Part :=
  match readPlan f.payload with
  | none => p.refuse f .malformed []
  | some (bay, pl) =>
    match bayOf bay with
    | none => p.refuse f .badValue []
    | some b =>
      if !(p.bayEntry b).configured || !pl.inRange then p.refuse f .badValue []
      else if (p.bay b).someIncoming then p.refuse f .inUse []
      else if !pl.within pl.tareFront pl.tareRear then p.refuse f .axleLimit []
      else
        let p := p.discardPlan b
        let r := p.bay b
        let p := p.setBay b
          { r with plan := some { pl with scalePending := (p.bayEntry b).scale }, noted := none,
                   causes := { r.causes with discrepancy := false, stale := r.pollStale } }
        ((p.judgeTruck b).derive b).ok f []

/-- A PLAN_CLEAR frame (R141). -/
def servePlanClear (f : Frame) (p : Part) : Part :=
  match readOne f.payload with
  | none => p.refuse f .malformed []
  | some bay =>
    match bayOf bay with
    | none => p.refuse f .badValue []
    | some b =>
      if !(p.bayEntry b).configured then p.refuse f .badValue []
      else if (p.bay b).someIncoming then p.refuse f .inUse []
      else if (p.bay b).plan.isNone then p.ok f []
      else ((p.discardPlan b).derive b).ok f []

/-- A BAY_ACK frame (R149). -/
def serveBayAck (f : Frame) (p : Part) : Part :=
  match readOne f.payload with
  | none => p.refuse f .malformed []
  | some bay =>
    match bayOf bay with
    | none => p.refuse f .badValue []
    | some b =>
      if !(p.bayEntry b).configured then p.refuse f .badValue []
      else
        let p :=
          if (p.bay b).causes.discrepancy then
            (p.setBay b { p.bay b with causes := { (p.bay b).causes with discrepancy := false } }).derive b
          else p
        p.ok f (le 1 (p.bay b).causes.flags)

/-! ## Set-down on a truck -/

/-- The commit of a set-down, with the state derived (R153). -/
def Part.commitPlacement (p : Part) (b : Fin 6) (k : Nat) (coil : Coil) : Part :=
  (p.onPlan b fun pl => pl.commit k coil (p.bayEntry b).scale).derive b

/-! ## Reports (R138, R146, R154) -/

/-- The cranes whose hooks are bound for the bay are stopped with TRUCK_LEFT (R146), from west to east, a DESIGN CHOICE (log 39). -/
def Part.stopBound (p : Part) (b : Fin 6) : Part :=
  p.configured.foldl (fun p c => if p.boundFor c b then p.requestStop c .truckLeft (some b) else p) p

/-- TRUCK_LEFT_EARLY when some placements are PLACED and some are not (R146). -/
def Part.noticeLeftEarly (p : Part) (b : Fin 6) : Part :=
  match (p.bay b).plan with
  | none => p
  | some pl =>
    if 0 < pl.placedCount ∧ pl.placedCount < pl.placements.length then
      p.notify .truckLeftEarly b.val pl.placedCount pl.placements.length (pl.truck.elim 0 BitVec.toNat)
    else p

/-- The truck has departed (R146). -/
def Part.depart (p : Part) (b : Fin 6) : Part := ((p.noticeLeftEarly b).discardPlan b).derive b

/-- The scale cross-check of a taken report (R154). A check that is pending stays so when scale present is rewritten to no, a DESIGN
CHOICE (log 40). -/
def Part.checkScale (p : Part) (b : Fin 6) (rep : Report) : Part :=
  let r := p.bay b
  match r.plan with
  | none => p
  | some pl =>
    if !(pl.scalePending && rep.present && rep.inPosition && rep.stable) then p
    else
      let p := p.onPlan b fun pl => { pl with scalePending := false }
      let load := (pl.front + pl.rear).toNat
      if (p.bayEntry b).scaleTolerance < apart rep.gross load then
        let r := p.bay b
        let p := p.setBay b { r with causes := { r.causes with discrepancy := true } }
        (p.notify .scaleDiscrepancy b.val load rep.gross pl.placedCount).derive b
      else p

/-- The first report taken from a poll-STALE bay ends poll-STALE (R139). -/
def Part.endPollStale (p : Part) (b : Fin 6) : Part :=
  let r := p.bay b
  if r.pollStale then
    let causes := { r.causes with stale := false }
    (p.setBay b { r with pollStale := false, misses := 0, causes := causes }).notify .bayState b.val
      (3 + 256 * r.state.code) r.state.code causes.flags
  else p.setBay b { r with misses := 0 }

/-- A taken report, in the order of R138. -/
def Part.takeReport (p : Part) (b : Fin 6) (rep : Report) : Part :=
  let p := p.endPollStale b
  let p := p.setBay b { p.bay b with last := some rep }
  let p := if rep.inPosition then p else p.stopBound b
  if !rep.present && (p.bay b).state != .empty then p.depart b
  else ((p.judgeTruck b).derive b).checkScale b rep

/-- A BAY_REPORT from a bay's unit: malformed, late or taken; one of a bay that is no longer configured is not taken in (R138; log
37). A malformed report does not use up the first report of a dwell, a DESIGN CHOICE (log 35). -/
def Part.bayReport (p : Part) (b : Fin 6) (payload : List Byte) : Part :=
  if !(p.bayEntry b).configured then p
  else
    match readBayReport payload p.now with
    | none => p.setBay b { p.bay b with malformed := bump (p.bay b).malformed }
    | some rep =>
      match p.bays.scan with
      | some sc =>
        if sc.bay = b ∧ sc.taken = false then
          ({ p with bays := { p.bays with scan := some { sc with taken := true } } }).takeReport b rep
        else p.setBay b { p.bay b with late := bump (p.bay b).late }
      | none => p.setBay b { p.bay b with late := bump (p.bay b).late }

/-! ## The poll scan (R137, R139) -/

/-- A bay's dwell: the larger of its reply allowance and its scale settle time (R137). -/
def BayEntry.dwell (e : BayEntry) : Nat := max e.allowance e.settle

/-- The poll of a bay is queued, or skipped and counted, and its dwell starts (R137, R171); that the count is the crane port's is
DEDUCED (log 41). -/
def Part.startPoll (p : Part) (b : Fin 6) : Part :=
  let e := p.bayEntry b
  let room := p.link.normalRoom
  let p :=
    if room then
      p.onLink (Link.pushNormal (.poll b) (BitVec.ofNat 8 e.station) .bayPoll (pollPayload b (p.bay b)))
    else
      p.onLink fun l => { l with crane := { l.crane with counts :=
        { l.crane.counts with pollSkips := bump l.crane.counts.pollSkips } } }
  { p with bays := { p.bays with scan := some ⟨b, after p.now e.dwell, false, !room⟩ } }

/-- The next configured bay after one, wrapping from the highest index to the lowest (R137). -/
def Part.nextBay (p : Part) (b : Fin 6) : Option (Fin 6) :=
  match p.configuredBays.find? fun d => decide (b < d) with
  | some d => some d
  | none => p.configuredBays.head?

/-- The scan moves on from a bay, or is idle with no bay configured (R137). -/
def Part.moveScan (p : Part) (b : Fin 6) : Part :=
  match p.nextBay b with
  | some d => p.startPoll d
  | none => { p with bays := { p.bays with scan := none } }

/-- A miss of a bay's poll (R139). -/
def Part.missPoll (p : Part) (b : Fin 6) : Part :=
  let r := p.bay b
  let misses := min 3 (r.misses + 1)
  let p := p.setBay b { r with misses := misses, totalMisses := bump r.totalMisses }
  if misses = 3 ∧ r.pollStale = false then
    let r := p.bay b
    let p := p.setBay b { r with pollStale := true, causes := { r.causes with stale := r.plan.isSome } }
    let p := p.derive b
    let r := p.bay b
    p.notify .bayState b.val (2 + 256 * r.state.code) r.state.code r.causes.flags
  else p

/-- A dwell's end: the poll is judged and the scan moves on (R137, R139). -/
def Part.endDwell (p : Part) (sc : Scan) : Part :=
  let p := if sc.taken && !sc.skipped then p else p.missPoll sc.bay
  p.moveScan sc.bay

/-! ## The flash timer (R157) -/

/-- The flash timer's expiry turns the red command over (R157). -/
def Part.flash (p : Part) (b : Fin 6) : Part :=
  let on := !p.lines.red[b].commanded
  let e := p.bayEntry b
  let p := { p with lines := { p.lines with red := p.lines.red.set b (p.lines.red[b].command on) } }
  p.setBay b { p.bay b with flashAt := some (after p.now (if on then e.flashOn else e.flashOff)) }

end Sys2Proof.Machine
end

