-- ==== Sys2Proof/Machine/Filter.lean ====
section
/-! DEFINITION. The discrete input filter and the comparison of outputs with their readbacks (03, R70 to R72). -/

namespace Sys2Proof.Machine

/-! ## Lines by number (R70) -/

/-- The output whose readback has a line number (R70). -/
def Lines.output (l : Lines) (n : Nat) : Option OutLine :=
  if h : n < 4 then some l.stop[n]
  else if h : 8 ≤ n ∧ n < 14 then some (l.red[n - 8]'(by omega))
  else if h : 16 ≤ n ∧ n < 22 then some (l.green[n - 16]'(by omega))
  else none

/-- The lines with an output replaced; a number of no readback changes nothing. -/
def Lines.setOutput (l : Lines) (n : Nat) (o : OutLine) : Lines :=
  if h : n < 4 then { l with stop := l.stop.set n o }
  else if h : 8 ≤ n ∧ n < 14 then { l with red := l.red.set (n - 8) o (by omega) }
  else if h : 16 ≤ n ∧ n < 22 then { l with green := l.green.set (n - 16) o (by omega) }
  else l

/-- The bay of a driver-safe line number (R70). -/
def driverBay (n : Nat) : Option (Fin 6) := if 24 ≤ n then bayOf (n - 24) else none

/-- The crane or bay of an output is configured (R72). -/
def Part.lineConfigured (p : Part) (n : Nat) : Bool :=
  if n < 4 then (craneOf n).any fun c => (p.entry c).configured
  else if n < 14 then (bayOf (n - 8)).any fun b => (p.bayEntry b).configured
  else (bayOf (n - 16)).any fun b => (p.bayEntry b).configured

/-- The part with an output replaced. -/
def Part.setOutput (p : Part) (n : Nat) (o : OutLine) : Part := { p with lines := p.lines.setOutput n o }

/-! ## Sampling (R71) -/

/-- One sample of an input (R71). -/
def InputFilter.sample (f : InputFilter) (level : Bool) : InputFilter :=
  if level = f.last then { f with run := min 3 (f.run + 1) } else { f with last := level, run := 1 }

/-- The input's level is to be accepted: run count 3 and a last sampled level that differs from the accepted one (R71). -/
def InputFilter.due (f : InputFilter) : Bool := f.run == 3 && f.accepted != Level.of f.last

/-- The last sampled level is accepted (R71). -/
def InputFilter.accept (f : InputFilter) : InputFilter := { f with accepted := Level.of f.last }

/-- One sample of an output's readback; a running check delay counts it (R71, R72). -/
def OutLine.sample (o : OutLine) (level : Bool) : OutLine :=
  { o with input := o.input.sample level, delay := o.delay.map fun n => min 4 (n + 1) }

/-- Every input takes one sample, and the next sample falls one interval after the present counter (R71, R182). -/
def Lines.sample (l : Lines) (s : Samples) (now : Time) (interval : Nat) : Lines :=
  { stop := Vector.ofFn fun c => l.stop[c].sample s.stop[c], red := Vector.ofFn fun b => l.red[b].sample s.red[b],
    green := Vector.ofFn fun b => l.green[b].sample s.green[b],
    driver := Vector.ofFn fun b => l.driver[b].sample s.driver[b], nextSample := after now interval }

/-! ## The comparison (R72) -/

/-- The commanded level is compared with the accepted readback level (R72). -/
def Part.compareLine (p : Part) (n : Nat) : Part :=
  match p.lines.output n with
  | none => p
  | some o =>
    if !p.lineConfigured n || o.input.accepted == .unknown then p
    else if Level.of o.commanded = o.input.accepted then p.setOutput n { o with fault := false }
    else if o.fault then p
    else (p.setOutput n { o with fault := true }).notify .lineFault n (Level.of o.commanded).code o.input.accepted.code 0

/-- A driver-safe input's change goes to the bay controller (R147, R148). -/
def Part.driverChanged (p : Part) (b : Fin 6) (old new : Level) : Part :=
  if !(p.bayEntry b).configured then p
  else if new = .active then p.driverReturned b
  else if old = .active then p.driverLeft b
  else p

/-- The level of a readback is accepted; it is compared while no check delay runs (R71, R72). -/
def Part.acceptReadback (p : Part) (n : Nat) (o : OutLine) : Part :=
  let p := p.setOutput n { o with input := o.input.accept }
  if o.delay.isNone then p.compareLine n else p

/-- The level of a driver-safe input is accepted (R71, R147, R148). -/
def Part.acceptDriver (p : Part) (b : Fin 6) : Part :=
  let f := p.lines.driver[b]
  let p := { p with lines := { p.lines with driver := p.lines.driver.set b f.accept } }
  p.driverChanged b f.accepted (Level.of f.last)

/-- An input's level is due to be accepted (R71). -/
def Part.levelDue (p : Part) (n : Nat) : Bool :=
  match p.lines.output n, driverBay n with
  | some o, _ => o.input.due
  | none, some b => (p.lines.driver[b]).due
  | none, none => false

/-- An input's level is accepted when it is due (R71). -/
def Part.acceptLevel (p : Part) (n : Nat) : Part :=
  match p.lines.output n, driverBay n with
  | some o, _ => if o.input.due then p.acceptReadback n o else p
  | none, some b => if (p.lines.driver[b]).due then p.acceptDriver b else p
  | none, none => p

/-- An output's check delay has taken its fourth sample (R72). -/
def Part.delayDue (p : Part) (n : Nat) : Bool := (p.lines.output n).any fun o => o.delay == some 4

/-- The check delay of an output ends with the comparison (R72). -/
def Part.endDelay (p : Part) (n : Nat) : Part :=
  match p.lines.output n with
  | some o => if o.delay = some 4 then (p.setOutput n { o with delay := none }).compareLine n else p
  | none => p

/-- The line numbers of R70, in ascending order. -/
def lineList : List Nat := [0, 1, 2, 3, 8, 9, 10, 11, 12, 13, 16, 17, 18, 19, 20, 21, 24, 25, 26, 27, 28, 29]

/-- What a sample has made due is done before the next sample: first acceptances, then ends of check delays (log 4). -/
def Part.settleLines (p : Part) : Part :=
  lineList.foldl (fun p n => p.endDelay n) (lineList.foldl (fun p n => p.acceptLevel n) p)

/-- The sample of every input, when it is due (R71). -/
def Part.takeSamples (p : Part) (s : Samples) : Part :=
  if passed p.now p.lines.nextSample then
    let p := p.settleLines
    { p with lines := p.lines.sample s p.now p.params.sampleInterval }
  else p

end Sys2Proof.Machine
end

