-- ==== Sys2Proof/Machine/Orders.lean ====
section
/-! DEFINITION. The order gate's intake (03): resolution (R53), acceptance (R55 to R57), HALT (R65) and DONE (R63). -/

namespace Sys2Proof.Machine

/-! ## Resolution (R53) -/

/-- The coordinates of a location, before the crane's reach (R53). A PICK takes ENTRY and SLOT, a PLACE takes SLOT and
BAYPOS. -/
def Part.locate (p : Part) (c : Fin 4) (k : OrderKind) (loc : Option Location) : Option Point :=
  let zSafe := (p.entry c).zSafe
  match k, loc with
  | .park, _ => some ⟨(p.entry c).parkX, (p.entry c).parkY, zSafe⟩
  | .goto, some (.coord x y) => some ⟨x, y, zSafe⟩
  | .place, some (.entry _) => none
  | _, some (.entry e) =>
    match craneOf e with
    | none => none
    | some i => let ep := p.gate.entryPoints[i]; if ep.defined then some ⟨ep.x, ep.y, ep.z⟩ else none
  | _, some (.slot s) => (p.slots.slot s).map fun t => ⟨t.geo.x, t.geo.y, t.geo.z⟩
  | .pick, some (.bayPos _ _) => none
  | _, some (.bayPos b k) => (bayOf b).bind fun b => p.bayPoint b k
  | _, _ => none

/-- The runway range of a crane, as signed bounds (R53). -/
def Part.reach (p : Part) (c : Fin 4) : Int × Int :=
  let e := p.entry c
  ((e.westExt + e.margin + e.allowance : Nat), (p.params.length : Int) - 1 - e.eastExt - e.margin - e.allowance)

/-- The target brought inside the crane's reach: GOTO and PARK are clamped, PICK and PLACE must lie inside (R53). -/
def Part.intoReach (p : Part) (c : Fin 4) (k : OrderKind) (t : Point) : Option Point :=
  let (lo, hi) := p.reach c
  let e := p.entry c
  if hi < lo then none
  else
    let x := (max lo (min hi t.x)).toNat
    let y := max e.yMin (min e.yMax t.y)
    match k with
    | .goto => some { t with x := x, y := y }
    | .park => some { t with x := x, y := y }
    | .pick => if x = t.x ∧ y = t.y then some t else none
    | .place => if x = t.x ∧ y = t.y then some t else none

/-- The resolved target of an order; none is BAD_LOCATION (R53). -/
def Part.resolve (p : Part) (c : Fin 4) (k : OrderKind) (loc : Option Location) : Option Point :=
  (p.locate c k loc).bind fun t => p.intoReach c k t

/-! ## Acceptance (R55 to R57) -/

/-- Checks 1 to 4 of R55. -/
def Part.craneChecks (p : Part) (c : Fin 4) : Option Reason :=
  if p.mgmt.mode ≠ .run then some .wrongMode
  else if (p.record c).tracking ≠ .tracked then some .craneUntracked
  else if (p.latch c).causes.any then some .stopLatched
  else
    match (p.record c).last.map Telegram.drive with
    | some .manual => some .craneManual
    | some .fault => some .craneFault
    | _ => none

/-- The current order's own lift or set-down is under way (R57). -/
def Part.underWay (p : Part) (c : Fin 4) : Bool :=
  (p.activeOrder c).any fun o => o.state == .forwarded
    && ((o.kind == .pick && (p.hook c).state == .lifting) || (o.kind == .place && (p.hook c).state == .weighed))

/-- A verdict on an order that resolved and is not accepted; its permitted x is a free value (R56, log 5). -/
def Part.notAccepted (p : Part) (c : Fin 4) (tag : Nat) (kind : VerdictKind) (why : Option Reason) (t : Point) : Part :=
  let x := (Config.permittedOfRefused p.free).toNat
  { p with free := p.free + 1 }.verdict c tag kind why t.x x

/-- The record of an accepted order (R55). Before R59 first sets it the permitted x is the crane's recorded x, a DESIGN CHOICE that
shows in the verdict of an order that yields in its opening step (R37, R56, log 34). -/
def Part.newOrder (p : Part) (c : Fin 4) (r : OrderRequest) (t : Point) : Order :=
  { kind := r.kind, tag := r.tag, loc := r.loc, data := r.data, target := t, permitted := p.craneX c,
    cls := r.cls.getD (p.entry c).dflt, speed := r.speed, state := .waiting, short := none, lastSeq := none,
    lastDone := false, pending := none }

/-- An accepted order supersedes the current one, enters the record and takes its zone step (R55, R57). -/
def Part.acceptOrder (p : Part) (c : Fin 4) (r : OrderRequest) (t : Point) : Part :=
  let p := p.endOrder c false (some (.superseded, none))
  (p.setOrder c (some (p.newOrder c r t))).zoneStep c true

/-- An order that resolved: checks 7 to 11, then acceptance (R55). -/
def Part.judgeResolved (p : Part) (c : Fin 4) (r : OrderRequest) (t : Point) : Part :=
  match p.orderChecks c r.kind r.loc t with
  | some why => p.notAccepted c r.tag .refused (some why) t
  | none =>
    if p.link.normalRoom then p.acceptOrder c r t else p.notAccepted c r.tag .busy none t

/-- Checks 1 to 5 of R55, which ask no other unit: the verdict of the first that fails, with its reason. -/
def Part.firstChecks (p : Part) (c : Fin 4) : Option (VerdictKind × Option Reason) :=
  match p.craneChecks c with
  | some why => some (.refused, some why)
  | none => if p.underWay c then some (.busy, none) else none

/-- An order that passed checks 1 to 5 of R55: check 6, its resolution (R53), and then the rest. -/
def Part.resolveOrder (p : Part) (c : Fin 4) (r : OrderRequest) : Part :=
  match p.resolve c r.kind r.loc with
  | none => p.verdict c r.tag .refused (some .badLocation) 0 0
  | some t => p.judgeResolved c r t

/-- A well-formed order for a crane: the checks of R55 in their order. -/
def Part.judgeOrder (p : Part) (c : Fin 4) (r : OrderRequest) : Part :=
  match p.firstChecks c with
  | some (kind, why) => p.verdict c r.tag kind why 0 0
  | none => p.resolveOrder c r

/-- An order frame at the gate (R52, R55). -/
def Part.takeOrder (p : Part) (c : Fin 4) (k : OrderKind) (payload : List Byte) : Part :=
  match readOrder k payload with
  | none => p.verdict c (orderTag payload) .refused (some .malformed) 0 0
  | some r => p.judgeOrder c r

/-- The order kind of a frame kind. -/
def Kind.order : Kind → Option OrderKind
  | .goto => some .goto
  | .pick => some .pick
  | .place => some .place
  | .park => some .park
  | _ => none

/-! ## HALT (R65) -/

/-- A HALT frame for a crane (R52, R65). -/
def Part.takeHalt (p : Part) (c : Fin 4) (payload : List Byte) : Part :=
  match readHalt payload with
  | none => p.verdict c (orderTag payload) .refused (some .malformed) 0 0
  | some tag =>
    let p := p.endOrder c false (some (.superseded, none))
    (p.onLink (Link.putHalt c tag)).verdict c tag .passed none 0 0

/-- The broadcast HALT enters NORMAL at the head; from a full queue the tail is discarded and counted (R171); that the
count is the crane port's is DEDUCED (log 41). -/
def Link.broadcastHalt (f : Frame) (l : Link) : Link :=
  let room := l.normalRoom
  let kept := if room then l.normal else l.normal.dropLast
  let counts := l.crane.counts
  let counts := if room then counts else { counts with forwardDiscards := bump counts.forwardDiscards }
  Link.startCrane { l with normal := ⟨.broadcastHalt, f⟩ :: kept, crane := { l.crane with counts := counts } }

/-- A broadcast HALT ends the active order of every configured crane and removes their queued commands, and then goes out as
a single frame (R65, R171). The cranes are taken from west to east, a DESIGN CHOICE (log 39). -/
def Part.takeBroadcastHalt (p : Part) (f : Frame) : Part :=
  let p := p.configured.foldl (fun p c =>
    (p.endOrder c false (some (.superseded, none))).onLink (Link.removeCommands c)) p
  p.onLink (Link.broadcastHalt f)

/-! ## DONE (R63) -/

/-- The DONE is for the current order (R63). -/
def Order.isDone (o : Order) (d : RawDone) : Bool := o.tag == d.tag && o.lastSeq == some d.seq

/-- A DONE telegram at the gate (R63). -/
def Part.takeDone (p : Part) (c : Fin 4) (d : RawDone) : Part :=
  match (p.activeOrder c).filter fun o => o.isDone d with
  | none => p
  | some o =>
    match o.state with
    | .forwarded => p.endOrder c d.complete none
    | .partly =>
      if d.complete && o.short.isNone then p.setOrder c (some { o with lastDone := true })
      else p.endOrder c d.complete none
    | .waiting => p
    | .ended => p

end Sys2Proof.Machine
end

