-- ==== Sys2Proof/Machine/Allocation.lean ====
section
/-! DEFINITION. The allocation engine (06): requests on arrival, the hook reports, the search, and the settlement at a warm
restart. -/

namespace Sys2Proof.Machine

/-! ## Answers -/

/-- The one REPLY of an ALLOCATE (R121, R126). -/
def Request.reply (q : Request) (a : Answer) (r : Option Reason) (data : List Byte) : ReplyBody :=
  ⟨Kind.allocate.code, q.frameSeq, a, r, data⟩

/-- What every answer to an ALLOCATE begins with: its tag, its coil id, 0 when absent, and its crane, 255 for none (R121, R122,
R132, log 8). -/
def answerHead (tag : Nat) (coil : Option CoilId) (crane : Option Nat) : List Byte :=
  le 2 tag ++ leId coil ++ le 1 (crane.getD 255)

/-- The head of a request's answers. -/
def Request.answerHead (q : Request) : List Byte :=
  Sys2Proof.Machine.answerHead q.tag (some q.coil) (q.crane.map Fin.val)

/-- REFUSED with a reason (R132). -/
def Request.refusal (q : Request) (r : Reason) : ReplyBody := q.reply .refused (some r) q.answerHead

/-- BUSY (R122, R123). -/
def Request.busy (q : Request) : ReplyBody := q.reply .busy none q.answerHead

/-- The part with a crane's deferred entry replaced (R123). -/
def Part.setDeferred (p : Part) (c : Fin 4) (d : Option Deferred) : Part :=
  { p with engine := { p.engine with deferred := p.engine.deferred.set c d } }

/-- The part with the allocation queue replaced (R122). -/
def Part.setQueue (p : Part) (q : List Request) : Part := { p with engine := { p.engine with queue := q } }

/-! ## Arrival (R121 to R123) -/

/-- An optional size lies in 1 to 65,535 (R121). -/
def sizeInRange (n : Option Nat) : Bool := n.all fun v => decide (1 ≤ v)

/-- The named crane: outer none when it is out of range or not configured, inner none when no crane is named (R121). -/
def Part.namedCrane (p : Part) (crane : Option Nat) : Option (Option (Fin 4)) :=
  match crane with
  | none => some none
  | some n => ((craneOf n).filter fun c => (p.entry c).configured).map some

/-- The source x is in range, and FROM_CRANE comes with a crane (R121). -/
def sourceInRange (s : SourceX) (crane : Option Nat) : Bool :=
  match s with
  | .given x => decide (x ≤ 262143)
  | .fromCrane => crane.isSome

/-- The checks of R121 in their order; a request that passes, or the reason. -/
def Part.checkAllocate (p : Part) (f : Frame) (r : RawAllocate) : Except Reason Request :=
  match r.coil, p.namedCrane r.crane with
  | some coil, some crane =>
    if !(sizeInRange r.diameter && sizeInRange r.width && sourceInRange r.source r.crane) then .error .badValue
    else if r.weight.isNone && crane.isNone then .error .weightUnproven
    else if r.source == .fromCrane && !(crane.any fun c => (p.record c).last.isSome) then .error .craneUntracked
    else
      .ok { frameSeq := f.seq, tag := r.tag, coil := coil, weight := r.weight, diameter := r.diameter, width := r.width,
            group := r.group, source := r.source, crane := crane, mask := r.mask, groundOnly := r.groundOnly,
            since := p.now }
  | _, _ => .error .badValue

/-- A deferred request of a crane becomes ready with what hangs on the hook (R124). -/
def Part.makeReady (p : Part) (c : Fin 4) (q : Request) (weight : Nat) (quality : Quality) : Part :=
  p.setDeferred c (some ⟨q, .ready weight quality (p.craneX c) p.now⟩)

/-- A deferred request on arrival (R123). -/
def Part.arriveDeferred (p : Part) (c : Fin 4) (q : Request) : Part :=
  if p.engine.deferred[c].isSome then p.giveAnswer q.busy
  else if (p.hook c).state == .weighed then
    match (p.hook c).coil with
    | some coil =>
      if coil.id = some q.coil then p.makeReady c q coil.weight coil.quality
      else p.giveAnswer (q.refusal .weightUnproven)
    | none => p.giveAnswer (q.refusal .weightUnproven)
  else p.setDeferred c (some ⟨q, .parked⟩)

/-- A request with a declared weight joins the queue, or is answered BUSY (R122). -/
def Part.arriveQueued (p : Part) (q : Request) : Part :=
  if p.engine.queue.length < Config.queueCapacity then p.setQueue (p.engine.queue ++ [q]) else p.giveAnswer q.busy

/-- An ALLOCATE frame that the engine takes (R121 to R123); a payload that does not fit is the responder's MALFORMED
(R176). -/
def serveAllocate (f : Frame) (p : Part) : Part :=
  match readAllocate f.payload with
  | none => p.refuse f .malformed []
  | some r =>
    match p.checkAllocate f r with
    | .error why =>
      p.giveAnswer ⟨Kind.allocate.code, f.seq, .refused, some why, answerHead r.tag r.coil r.crane⟩
    | .ok q =>
      match q.weight, q.crane with
      | some _, _ => p.arriveQueued q
      | none, some c => p.arriveDeferred c q
      | none, none => p

/-! ## Hook reports (R124) -/

/-- The weigher reports that a crane's hook became WEIGHED (R89 step 3, R124). -/
def Part.reportWeighed (p : Part) (c : Fin 4) (coil : Coil) : Part :=
  match p.engine.deferred[c] with
  | some ⟨q, .parked⟩ =>
    if coil.id = some q.coil then p.makeReady c q coil.weight coil.quality
    else (p.setDeferred c none).giveAnswer (q.refusal .weightUnproven)
  | _ => p

/-- The weigher reports that a crane's hook returned to EMPTY without a weighing (R90, R95, R124). -/
def Part.reportEmptied (p : Part) (c : Fin 4) : Part :=
  match p.engine.deferred[c] with
  | some ⟨q, .parked⟩ => (p.setDeferred c none).giveAnswer (q.refusal .weightUnproven)
  | _ => p

/-! ## The next request (R125) -/

/-- The time of a deferred entry: its ready time, or, when parked ones count too, its arrival time (R125, R134). -/
def Deferred.time (d : Deferred) (parked : Bool) : Option Time :=
  match d.state with
  | .ready _ _ _ t => some t
  | .parked => if parked then some d.req.since else none

/-- The requests that may be next: the head of the queue and the deferred entries (R125). -/
def Part.waitingRequests (p : Part) (parked : Bool) : List (SearchOrigin × Time) :=
  (match p.engine.queue with | q :: _ => [(.queue, q.since)] | [] => [])
    ++ craneList.filterMap fun c =>
      (p.engine.deferred[c].bind fun d => d.time parked).map fun t => (.deferred c, t)

/-- The oldest of the requests; of two of equal age either, as the free value says (R125, log 10). -/
def pickOldest (now : Time) : Option (SearchOrigin × Time) → List (SearchOrigin × Time) → Nat → Option SearchOrigin × Nat
  | best, [], free => (best.map Prod.fst, free)
  | none, x :: rest, free => pickOldest now (some x) rest free
  | some b, x :: rest, free =>
    if since now b.2 < since now x.2 then pickOldest now (some x) rest free
    else if since now x.2 < since now b.2 then pickOldest now (some b) rest free
    else pickOldest now (some (if Config.searchFirst free then b else x)) rest (free + 1)

/-- A search may start: a request is ready, no search is being served and the answer list is empty (R125, R126). -/
def Part.searchDue (p : Part) : Bool :=
  p.engine.search.isNone && p.engine.answers.isEmpty && !(p.waitingRequests false).isEmpty

/-- The request at its place, ready or not (R125). -/
def Part.requestAt (p : Part) (o : SearchOrigin) : Option Request :=
  match o with
  | .queue => p.engine.queue.head?
  | .deferred c => p.engine.deferred[c].map Deferred.req

/-- The group class: the ship group divided by 32 (00, Conventions). -/
def groupClass (group : Nat) : Fin 8 := Fin.ofNat 8 (group / 32)

/-- A search of a request with the values in force (R125, R127). -/
def Part.searchOf (p : Part) (o : SearchOrigin) : Search :=
  let group := ((p.requestAt o).map Request.group).getD 0
  { origin := o, routing := p.engine.routing[groupClass group], overflow := p.params.overflow, ground := p.params.ground,
    mix := p.params.mix }

/-- A write that the slot map serves before a search that waits there is a write before that search starts (R125, R127, R133). -/
def Part.renewSearch (p : Part) : Part :=
  { p with engine := { p.engine with search := p.engine.search.map fun s => p.searchOf s.origin } }

/-- The search of the next request is one request to the slot map, with the values in force (R125, R127). -/
def Part.startSearch (p : Part) : Part :=
  match pickOldest p.now none (p.waitingRequests false) p.free with
  | (none, _) => p
  | (some o, free) =>
    { p with engine := { p.engine with search := some (p.searchOf o) }, free := free,
             slots := { p.slots with requests := p.slots.requests ++ [.search] } }

/-! ## Where the search looks (R128 to R131) -/

/-- What a search judges: the coil, its source x and whether tier 2 is excluded by preference (R129). -/
structure Wanted where
  coil : Coil
  x : Nat
  groundOnly : Bool
deriving DecidableEq, Repr

/-- The candidate blocks, defined blocks only (R128). -/
def SlotMap.candidateBlocks (m : SlotMap) (preferred routing : Byte) : List (Fin 8) :=
  let mask : Byte := if preferred ≠ 0 then preferred else if routing ≠ 0 then routing else 0xFF
  blockList.filter fun b => mask.getLsbD b && m.blocks[b].defined

/-- The slot's block and row hold an OCCUPIED slot of another ship group (R130). -/
def SlotMap.mixed (m : SlotMap) (s : Slot) (group : Nat) : Bool :=
  m.slots.any fun e => e.2.geo.block == s.geo.block && e.2.geo.row == s.geo.row && match e.2.contents with
    | .occupied coil _ => coil.group != group
    | _ => false

/-- A slot's tier is 1. -/
def Tier.ground (t : Tier) : Bool := t == .floor

/-- A slot is a candidate (R129). -/
def SlotMap.candidate (m : SlotMap) (w : Wanted) (s : Slot) : Bool :=
  s.contents == .free && (s.geo.tier.ground || (!w.groundOnly && w.coil.quality == .good))
    && (m.placementTest s w.coil (m.reservationLoad s.geo.block)).isNone

/-- The cost of a slot (R130). -/
def SlotMap.cost (m : SlotMap) (q : Search) (w : Wanted) (s : Slot) : Nat :=
  apart s.geo.x w.x / 1000 + m.blocks[s.geo.block].cost + (if s.geo.tier.ground then q.ground else 0)
    + (if m.mixed s w.coil.group then q.mix else 0)

/-- The winner of a pass over some blocks: the lowest cost, and of equal costs the lowest slot index (R131). -/
def SlotMap.winner (m : SlotMap) (q : Search) (w : Wanted) (blocks : List (Fin 8)) : Option (Nat × Slot × Nat) :=
  m.slots.foldl (fun best e =>
    if blocks.contains e.2.geo.block && m.candidate w e.2 then
      let cost := m.cost q w e.2
      match best with
      | some (_, _, lowest) => if cost < lowest then some (e.1, e.2, cost) else best
      | none => some (e.1, e.2, cost)
    else best) none

/-- The overflow block of a search, when it is defined and not among the candidate blocks (R127, R128). -/
def SlotMap.overflowBlock (m : SlotMap) (q : Search) (blocks : List (Fin 8)) : Option (Fin 8) :=
  match q.overflow with
  | none => none
  | some n => blockList.find? fun b => b.val == n && m.blocks[b].defined && !blocks.contains b

/-- Blocks as a mask, block b at bit b (R132). -/
def blockMask (bs : List (Fin 8)) : Nat := bs.foldl (fun n b => n + 2 ^ b.val) 0

/-! ## The answer (R132) -/

/-- The data of ALLOCATED (R132, log 8). -/
def Request.allocatedData (q : Request) (i : Nat) (s : Slot) (r : Reservation) (cost : Nat) (overflow : Bool) : List Byte :=
  q.answerHead ++ le 2 i ++ le 3 s.geo.x ++ le 2 s.geo.y ++ le 2 s.geo.z ++ le 2 r.number ++ leTime r.expiry ++ le 2 cost
    ++ le 1 (bit 0 overflow)

/-- The data of NO_SLOT (R132, log 8). -/
def Request.noSlotData (q : Request) (blocks : List (Fin 8)) (w : Wanted) : List Byte :=
  q.answerHead ++ le 1 (blockMask blocks) ++ le 2 w.coil.weight ++ le 1 w.coil.quality.code

/-- What a request's search judges: its own weight with quality GOOD, or what it took at its ready time; none when source x
is FROM_CRANE and the record was cleared (R122, R124, R133). -/
def Part.wanted (p : Part) (q : Request) (o : SearchOrigin) : Option Wanted :=
  let make := fun (weight : Nat) (quality : Quality) (x : Nat) =>
    some (⟨⟨some q.coil, weight, quality, q.diameter, q.width, q.group⟩, x, q.groundOnly⟩ : Wanted)
  match o with
  | .queue =>
    match q.source with
    | .given x => make (q.weight.getD 0) .good x
    | .fromCrane =>
      match q.crane.bind fun c => (p.record c).last with
      | some t => make (q.weight.getD 0) .good t.x
      | none => none
  | .deferred c =>
    match p.engine.deferred[c].map Deferred.state with
    | some (.ready weight quality x _) => make weight quality x
    | _ => none

/-- A found slot is reserved and the request is answered ALLOCATED (R112, R131, R132). -/
def Part.allocateSlot (p : Part) (q : Request) (w : Wanted) (i : Nat) (s : Slot) (cost : Nat) (overflow : Bool) : Part :=
  let (p, r) := p.makeReservation i (some q.coil) w.coil.weight q.diameter q.width q.group
  p.giveAnswer (q.reply .allocated none (q.allocatedData i s r cost overflow))

/-- The search and its answer (R128 to R133). -/
def Part.searchAndAnswer (p : Part) (q : Request) (s : Search) : Part :=
  match p.wanted q s.origin with
  | none => p.giveAnswer (q.refusal .craneUntracked)
  | some w =>
    let blocks := p.slots.candidateBlocks q.mask s.routing
    match p.slots.winner s w blocks with
    | some (i, slot, cost) => p.allocateSlot q w i slot cost false
    | none =>
      match p.slots.overflowBlock s blocks with
      | none => p.giveAnswer (q.reply .noSlot none (q.noSlotData blocks w))
      | some b =>
        match p.slots.winner s w [b] with
        | some (i, slot, cost) => p.allocateSlot q w i slot cost true
        | none => p.giveAnswer (q.reply .noSlot none (q.noSlotData (blocks ++ [b]) w))

/-- The request leaves the queue or its deferred entry (R125). -/
def Part.removeRequest (p : Part) (o : SearchOrigin) : Part :=
  match o with
  | .queue => p.setQueue (p.engine.queue.drop 1)
  | .deferred c => p.setDeferred c none

/-- The search being served completes: answered, and its request removed (R125, R131, R132). -/
def Part.completeSearch (p : Part) : Part :=
  match p.engine.search with
  | none => p
  | some s =>
    let p :=
      match p.requestAt s.origin with
      | some q => p.searchAndAnswer q s
      | none => p
    let p := p.removeRequest s.origin
    { p with engine := { p.engine with search := none } }

/-! ## The warm restart (R134) -/

/-- The answer a waiting request gets at a warm restart: WEIGHT_UNPROVEN when deferred, RESTARTED when queued (R134). -/
def SearchOrigin.restartReason (o : SearchOrigin) : Reason :=
  match o with
  | .queue => .restarted
  | .deferred _ => .weightUnproven

/-- The requests that wait are answered in the order of their times and removed (R134). -/
def Part.settleRequests : Nat → Part → Part
  | 0, p => p
  | n + 1, p =>
    match pickOldest p.now none (p.waitingRequests true) p.free with
    | (none, _) => p
    | (some o, free) =>
      let p := { p with free := free }
      let p :=
        match p.requestAt o with
        | some q => p.giveAnswer (q.refusal o.restartReason)
        | none => p
      Part.settleRequests n (p.removeRequest o)

end Sys2Proof.Machine
end

