-- ==== Sys2Proof/Machine/Weigher.lean ====
section
/-! DEFINITION. The hoist weigher (04): conversion, windows, tare, the hook state, the weight of record and the set-down. -/

namespace Sys2Proof.Machine

/-! ## Conversion (R80) -/

/-- A mean converted through a table: the gross weight and the overrange mark (R80). -/
def convert (c : Int) : List CalPoint → Nat × Bool
  | [] => (0, false)
  | [a] => (a.kg, decide (a.count < c))
  | a :: b :: rest =>
    if c ≤ a.count then (a.kg, false)
    else if c ≤ b.count then
      (((a.kg : Int) + nearest ((c - a.count) * ((b.kg : Int) - a.kg)) (b.count - a.count).toNat).toNat, false)
    else convert c (b :: rest)

/-! ## Windows (R79, R81) -/

/-- A sample enters the accumulator (R79). -/
def Accumulator.add (a : Accumulator) (v : Int) : Accumulator :=
  if a.number = 0 then ⟨1, v, v, v⟩ else ⟨a.number + 1, a.sum + v, min a.smallest v, max a.largest v⟩

/-- The tare in use (R81). -/
def Hook.tareInUse (h : Hook) (tong : Nat) : Nat := if h.suspect then tong else h.tare.getD tong

/-- The window quality (R81). -/
def windowQuality (overrange suspect : Bool) : Quality :=
  if overrange then .overrange else if suspect then .tareSuspect else .good

/-- The weights of a window through the active table (R80, R81). -/
def Hook.weights (h : Hook) (tong : Nat) (mean : Int) : Option WindowWeights :=
  match h.active with
  | none => none
  | some table =>
    let (gross, overrange) := convert mean table
    let tare := h.tareInUse tong
    some ⟨gross, tare, gross - tare, overrange, windowQuality overrange h.suspect⟩

/-- The window result of a full accumulator (R79). -/
def Hook.windowResult (h : Hook) (now : Time) (n band tong : Nat) : WindowResult :=
  let mean := nearest h.acc.sum n
  let spread := h.acc.largest - h.acc.smallest
  ⟨now, mean, spread, decide (spread ≤ (band : Int)), h.weights tong mean⟩

/-! ## Tare (R82) -/

/-- A quiet window of an EMPTY hook renews the tracked tare and the tare suspect mark (R82). -/
def Part.trackTare (p : Part) (c : Fin 4) (gross : Nat) : Part :=
  let h := p.hook c
  let tong := (p.entry c).tong
  if p.params.tareLimit < apart gross tong then
    let p := p.setHook c { h with tare := some gross, suspect := true }
    if h.suspect then p else p.notify .tareSuspect c.val gross tong p.params.tareLimit
  else p.setHook c { h with tare := some gross, suspect := false }

/-! ## Calibration (R76) -/

/-- A staged table becomes the active one (R76). -/
def Hook.activate (h : Hook) : Hook :=
  match h.staged with
  | none => h
  | some t => { h with active := some t, staged := none, tare := none, suspect := false }

/-- A crane's staged table becomes the active one (R76). -/
def Part.activateStaged (p : Part) (c : Fin 4) : Part := p.setHook c (p.hook c).activate

/-! ## The weight of record (R88, R89) -/

/-- How a coil record was formed (R88): the record, its expected weight, the source kind code and ID_DROPPED. -/
structure Formed where
  coil : Coil
  expected : Option Nat
  source : Nat
  dropped : Bool
deriving DecidableEq, Repr

/-- An anonymous coil (R88). -/
def Formed.anonymous (weight : Nat) (quality : Quality) : Formed :=
  ⟨⟨none, weight, quality, none, none, 255⟩, none, 0, false⟩

/-- An entry coil's id already stands in custody (R88, R117). -/
def Part.idTaken (p : Part) (c : Fin 4) (id : Option CoilId) : Bool :=
  id.any fun i => p.slots.holds i none || p.hookHolds i (some c) || p.placementHolds i

/-- The coil record is formed by the source, a SLOT source giving up its slot (R88, R106). -/
def Part.formCoil (p : Part) (c : Fin 4) (weight : Nat) (quality : Quality) : Part × Formed :=
  match (p.hook c).source with
  | none => (p, Formed.anonymous weight quality)
  | some ⟨.slot i, _⟩ =>
    match p.slots.take i c with
    | (some coil, m) =>
      ({ p with slots := m }, ⟨{ coil with weight := weight, quality := quality }, some coil.weight, 1, false⟩)
    | (none, _) => (p, Formed.anonymous weight quality)
  | some ⟨.entry _ d, _⟩ =>
    let dropped := p.idTaken c d.id
    (p, ⟨⟨if dropped then none else d.id, weight, quality, d.diameter, d.width, d.group⟩, some d.declared, 2, dropped⟩)

/-- A coil's id as a notice value, 0 when it has none. -/
def Coil.idValue (coil : Coil) : Nat := coil.id.elim 0 BitVec.toNat

/-- The second value of WEIGHED (R185). -/
def Formed.mark (f : Formed) : Nat :=
  f.coil.quality.code + 256 * f.source + bit 16 f.coil.id.isNone + bit 17 f.dropped

/-- The hook becomes WEIGHED: the coil record is formed, the source cleared, and the weighing handed on (R86 to R89). -/
def Part.becomeWeighed (p : Part) (c : Fin 4) (weight : Nat) (quality : Quality) : Part :=
  let p := p.setHook c { p.hook c with state := .weighed, lift := none, quiet := 0 }
  let (p, f) := p.formCoil c weight quality
  let p := p.setHook c { p.hook c with coil := some f.coil, source := none }
  let p := p.notify .weighed c.val weight f.mark f.coil.idValue
  let p :=
    match f.expected with
    | some e =>
      if p.params.mismatch < apart weight e then p.notify .weightMismatch c.val e weight f.coil.idValue else p
    | none => p
  p.reportWeighed c f.coil

/-! ## Set-down (R91 to R93) -/

/-- The coil is lost: LOST_TRACK, the last lost coil and the lost count (R93). -/
def Part.loseCoil (p : Part) (c : Fin 4) (coil : Coil) (why : Reason) : Part :=
  let h := p.hook c
  let p := p.setHook c { h with lost := some coil, lostCount := bump h.lostCount }
  p.notify .lostTrack c.val (why.code + bit 24 coil.id.isNone) coil.weight coil.idValue

/-- A destination as the first value of SET_DOWN (R185). -/
def DestPlace.code (d : DestPlace) : Nat :=
  match d with
  | .slot s => s + 65536
  | .bayPos b k => k + 256 * b.val + 2 * 65536

/-- The destination's owner still holds it INCOMING for this hook (R92, R110, R153). -/
def Part.holdsIncoming (p : Part) (d : DestPlace) (c : Fin 4) : Bool :=
  match d with
  | .slot i => p.slots.incomingFor i c
  | .bayPos b k => p.placementIncoming b k c

/-- The crane stands within its set-down tolerance of the target (R92). -/
def Part.withinTolerance (p : Part) (c : Fin 4) (d : Destination) : Bool :=
  decide (apart (p.craneX c) d.x ≤ (p.entry c).tolerance) && decide (apart (p.craneY c) d.y ≤ (p.entry c).tolerance)

/-- The coil reaches its destination (R92, R110, R153). -/
def Part.deliver (p : Part) (c : Fin 4) (d : DestPlace) (coil : Coil) : Part :=
  let p := p.setHook c { p.hook c with dest := none }
  let p :=
    match d with
    | .slot i => p.onSlots fun m => m.deliver i coil p.now
    | .bayPos b k => p.commitPlacement b k coil
  p.notify .setDown c.val (d.code + bit 24 coil.id.isNone) coil.weight coil.idValue

/-- The set-down of a coil: delivered, or lost with the first reason that holds (R92, R93). -/
def Part.settleCoil (p : Part) (c : Fin 4) (coil : Coil) : Part :=
  match (p.hook c).dest with
  | none => p.loseCoil c coil .noDestination
  | some d =>
    if !p.holdsIncoming d.place c then
      (p.setHook c { p.hook c with dest := none }).loseCoil c coil .destinationGone
    else if p.withinTolerance c d then p.deliver c d.place coil
    else (p.clearDest c).loseCoil c coil .outOfTolerance

/-- A WEIGHED hook is set down (R91). -/
def Part.setDown (p : Part) (c : Fin 4) : Part :=
  match (p.hook c).coil with
  | none => p
  | some coil =>
    let p := p.setHook c { p.hook c with state := .empty, quiet := 0, coil := none }
    (p.settleCoil c coil).activateStaged c

/-- The net of the last window result (R91). -/
def Hook.lastNet (h : Hook) : Option Nat := (h.lastWindow.bind WindowResult.weights).map WindowWeights.net

/-- The set-down judgment of a WEIGHED hook: gripper OPEN and last net below the release threshold (R91). -/
def Part.judgeSetDown (p : Part) (c : Fin 4) : Part :=
  let h := p.hook c
  if h.state == .weighed && h.gripper == .opened && h.lastNet.any fun n => decide (n < p.params.release) then p.setDown c
  else p

/-! ## Return to EMPTY (R90) -/

/-- The order that set a hook's source is still active (R90). -/
def Part.sourceActive (p : Part) (c : Fin 4) : Bool :=
  (p.activeOrder c).any fun o => (p.hook c).source.any fun s => s.tag == o.tag

/-- A hook returns to EMPTY from GRIPPED or LIFTING without a weight (R90). -/
def Part.returnEmpty (p : Part) (c : Fin 4) : Part :=
  let p := p.setHook c { p.hook c with state := .empty, quiet := 0, lift := none }
  let p := if p.sourceActive c then p else p.clearSource c
  (p.reportEmptied c).activateStaged c

/-! ## The gripper (R84) -/

/-- The gripper flag of an accepted POSITION acts on the hook state (R84). -/
def Part.takeGripper (p : Part) (c : Fin 4) (g : Gripper) : Part :=
  let p := p.setHook c { p.hook c with gripper := g }
  match (p.hook c).state, g with
  | .empty, .closed => p.setHook c { p.hook c with state := .gripped, quiet := 0 }
  | .empty, .opened => p
  | .gripped, .opened => p.returnEmpty c
  | .lifting, .opened => p.returnEmpty c
  | .gripped, .closed => p
  | .lifting, .closed => p
  | .weighed, .opened => p.judgeSetDown c
  | .weighed, .closed => p

/-! ## The hook judgment of a window end (R85, R86) -/

/-- The weigh timeout of a lift that starts now (R77, R85). -/
def Part.weighExpiry (p : Part) : Time := after p.now (p.params.weighTimeout * 1000)

/-- A window end with a net judged on a GRIPPED or LIFTING hook (R85, R86). -/
def Part.judgeLift (p : Part) (c : Fin 4) (quiet : Bool) (w : WindowWeights) : Part :=
  let h := p.hook c
  let engaged := decide (p.params.engage ≤ w.net)
  match h.state with
  | .gripped =>
    if engaged then
      p.setHook c { h with state := .lifting, lift := some ⟨p.now, p.weighExpiry⟩, quiet := if quiet then 1 else 0 }
    else p
  | .lifting =>
    if !engaged then p.setHook c { h with state := .gripped, quiet := 0, lift := none }
    else if !quiet then p.setHook c { h with quiet := 0 }
    else if 2 ≤ h.quiet then p.becomeWeighed c w.net w.quality
    else p.setHook c { h with quiet := h.quiet + 1 }
  | .empty => p
  | .weighed => p

/-- A window ends and is judged whole (R79 to R82, R85, R86, R91). -/
def Part.endWindow (p : Part) (c : Fin 4) : Part :=
  let h := p.hook c
  let res := h.windowResult p.now p.params.window p.params.settleBand (p.entry c).tong
  let p := p.setHook c { h with lastWindow := some res, acc := Accumulator.reset }
  match res.weights with
  | none => p
  | some w =>
    match h.state with
    | .empty => if res.quiet then p.trackTare c w.gross else p
    | .gripped => p.judgeLift c res.quiet w
    | .lifting => p.judgeLift c res.quiet w
    | .weighed => p.judgeSetDown c

/-- One sample enters a crane's window (R79). -/
def Part.takeSample (p : Part) (c : Fin 4) (v : Int) : Part :=
  let h := p.hook c
  let acc := h.acc.add v
  let p := p.setHook c { h with acc := acc }
  if p.params.window ≤ acc.number then p.endWindow c else p

/-! ## LOAD telegrams (R78) -/

/-- A well-formed LOAD is accepted (R78). -/
def Part.acceptsLoad (p : Part) (c : Fin 4) (seq : Byte) : Bool :=
  (p.record c).tracking != .tracked || (p.hook c).loadSeq.all fun old => newer seq old

/-- A LOAD of a crane: malformed, late or taken in. One of a crane whose entry is no longer configured is not taken in (R78; log
37). -/
def Part.loadTelegram (p : Part) (c : Fin 4) (seq : Byte) (payload : List Byte) : Part :=
  let h := p.hook c
  if !(p.entry c).configured then p
  else
    match readLoad payload with
    | none => p.setHook c { h with malformed := bump h.malformed }
    | some samples =>
      if p.acceptsLoad c seq then
        samples.foldl (fun p v => p.takeSample c v) (p.setHook c { h with loadSeq := some seq })
      else p.setHook c { h with late := bump h.late }

/-! ## The weigh expiry (R87) -/

/-- A LIFTING hook's weigh expiry has passed (R87). -/
def Part.weighDue (p : Part) (c : Fin 4) : Bool :=
  (p.hook c).state == .lifting && ((p.hook c).lift.any fun l => passed p.now l.expiry) && (p.hook c).lastNet.isSome

/-- The hook becomes WEIGHED, UNSETTLED, with the net of its last window result (R87). -/
def Part.weighUnsettled (p : Part) (c : Fin 4) : Part :=
  match (p.hook c).lastNet with
  | none => p
  | some net =>
    let h := p.hook c
    (p.setHook c { h with unsettled := bump h.unsettled }).becomeWeighed c net .unsettled

/-! ## A crane entry changes its configured field (R95) -/

/-- The hook is set to its power-on state with its calibration tables kept; a WEIGHED coil is reported CRANE_REMOVED, and a
source or destination is reverted (R95). -/
def Part.resetHook (p : Part) (c : Fin 4) : Part :=
  let p :=
    match (p.hook c).state, (p.hook c).coil with
    | .weighed, some coil => p.loseCoil c coil .craneRemoved
    | _, _ => p
  let p := (p.clearSource c).clearDest c
  let p := p.setHook c { Hook.reset with active := (p.hook c).active, staged := (p.hook c).staged }
  (p.reportEmptied c).activateStaged c

/-- A warm restart: LIFTING returns to GRIPPED, the window is emptied and the quiet run is 0 (R96). -/
def Hook.restart (h : Hook) : Hook :=
  { h with state := if h.state = .lifting then .gripped else h.state, lift := none, acc := Accumulator.reset, quiet := 0 }

/-! ## The cab-area check (R156) -/

/-- A loaded hook at a point in a cab area in force requests a stop with CAB_AREA (R156). -/
def Part.checkCab (p : Part) (c : Fin 4) : Part :=
  if (p.hook c).loaded && p.inCabArea (p.craneX c) (p.craneY c) then p.requestStop c .cabArea none else p

end Sys2Proof.Machine
end

