-- ==== Sys2Proof/Machine/Telegrams.lean ====
section
/-! DEFINITION. A POSITION telegram as a whole (R6 to R11): intake by the tracker and the hand-on to the other units. -/

namespace Sys2Proof.Machine

/-- The hand-on of an accepted telegram, in the order of R11. -/
def Part.handOnPosition (p : Part) (c : Fin 4) (g : Gripper) : Part :=
  let p := p.checkOrdering c
  let p := p.computeEnvelope c 0
  (p.takeGripper c g).checkCab c

/-- A POSITION of a crane: malformed, late or accepted (R6 to R11). One of a crane whose entry is no longer configured is not taken in
(R1, R6; log 37). -/
def Part.positionTelegram (p : Part) (c : Fin 4) (seq : Byte) (payload : List Byte) : Part :=
  let r := p.record c
  if !(p.entry c).configured then p
  else
    match readPosition payload with
    | none => p.setRecord c { r with malformed := bump r.malformed }
    | some raw =>
      if r.accepts seq then
        let (t, clamped) := bringIntoRange p.params.length seq p.now raw
        (p.acceptTelegram c t clamped).handOnPosition c t.gripper
      else p.setRecord c { r with late := bump r.late }

end Sys2Proof.Machine
end

