-- ==== Sys2Proof/Machine/Modes.lean ====
section
/-! DEFINITION. Modes, start-up and warm restart (10): MODE (R187 to R190), RESTART (R191) and the start after power-on or the
reset line (R192). -/

namespace Sys2Proof.Machine

/-- The mode changes, with its MODE_CHANGED notice (R187). -/
def Part.changeMode (p : Part) (m : Mode) (cause : Nat) : Part :=
  { p with mgmt := { p.mgmt with mode := m } }.notify .modeChanged 0 p.mgmt.mode.code m.code cause

/-! ## Entering RUN (R188, R189) -/

/-- Checks 1 to 3 of R188, with the index each names. -/
def Part.runChecks (p : Part) : Option (Reason × Nat) :=
  match p.tilingFailure with
  | some k => some (.notTiled, k)
  | none =>
    match p.configured.find? fun c => (p.record c).tracking != .tracked with
    | some c => some (.craneUntracked, c.val)
    | none =>
      match craneList.find? fun c => p.tracker.crossed[c] with
      | some c => some (.ordering, c.val)
      | none => none

/-- The zone cover of a crane's envelope (R20). -/
def Part.cover (p : Part) (c : Fin 4) : Option (Nat × Nat) := (p.record c).envelope.bind Envelope.cover

/-- Check 4 of R188: the western crane of the first pair of neighbours whose covers do not lie one below the other. -/
def Part.overlapping (p : Part) : List (Fin 4) → Option (Fin 4)
  | w :: e :: rest =>
    match p.cover w, p.cover e with
    | some a, some b => if a.2 < b.1 then Part.overlapping p (e :: rest) else some w
    | _, _ => some w
  | _ => none

/-- A zone lies in a crane's cover. -/
def Part.covers (p : Part) (c : Fin 4) (k : Nat) : Bool :=
  (p.cover c).any fun v => decide (v.1 ≤ k) && decide (k ≤ v.2)

/-- Checks 4 and 5 of R188, with the index each names. -/
def Part.coverChecks (p : Part) : Option (Reason × Nat) :=
  match p.overlapping p.configured with
  | some c => some (.overlap, c.val)
  | none =>
    match zoneList.find? fun k => (p.zone k).blocked && p.configured.any fun c => p.covers c k with
    | some k => some (.zoneBlocked, k)
    | none => none

/-- Step 1 of R189: every grant becomes exactly the zones of its crane's cover, every other zone FREE. -/
def Part.buildGrants (p : Part) : Part :=
  let zones := Vector.ofFn fun k : Fin 32 =>
    { p.arbiter.zones[k] with grant := p.configured.find? fun c => p.covers c k.val }
  let runs := Vector.ofFn fun c : Fin 4 =>
    if (p.entry c).configured then (p.cover c).map fun v => (⟨v.1, v.2⟩ : Run) else none
  { p with arbiter := { p.arbiter with zones := zones, runs := runs } }

/-- Step 2 of R189: STARTUP leaves a crane's latch (R69). -/
def Part.removeStartup (p : Part) (c : Fin 4) : Part :=
  if (p.latch c).causes.startup then
    let p := p.dropCause c .startup
    if (p.latch c).causes.any then p else p.latchCleared c 2
  else p

/-- The entry into RUN (R189). STARTUP is removed from the cranes from west to east, a DESIGN CHOICE (log 39). -/
def Part.enterRun (p : Part) : Part :=
  let p := p.buildGrants
  (p.configured.foldl (fun p c => p.removeStartup c) p).changeMode .run 1

/-- A MODE frame that asks for RUN in STARTUP or MAINTENANCE (R188). The envelopes are requested from west to east, and a refusal at
check 4 or 5 takes back nothing that the arbiter did on them in MAINTENANCE: both a DESIGN CHOICE (log 38). -/
def Part.judgeRun (p : Part) (f : Frame) : Part :=
  match p.runChecks with
  | some (why, i) => p.refuseAt f why i
  | none =>
    let p := p.configured.foldl (fun p c => p.requestEnvelope c) p
    match p.coverChecks with
    | some (why, i) => p.refuseAt f why i
    | none => p.enterRun.ok f []

/-! ## Entering MAINTENANCE (R190) -/

/-- The halt tag of a crane's order (R190 step 1). -/
def Part.haltTag (p : Part) (c : Fin 4) : Option Nat :=
  ((p.order c).filter fun o => o.state == .forwarded || o.state == .partly).map Order.tag

/-- One crane at the entry into MAINTENANCE (R190). -/
def Part.maintainCrane (p : Part) (c : Fin 4) : Part :=
  let tag := p.haltTag c
  let p := p.endOrder c false (some (.aborted, none))
  let p := p.onLink (Link.removeCommands c)
  match tag with
  | some t => p.onLink (Link.putHalt c t)
  | none => p

/-- The entry into MAINTENANCE (R190). -/
def Part.enterMaintenance (p : Part) : Part :=
  (p.configured.foldl (fun p c => p.maintainCrane c) p).changeMode .maintenance 1

/-! ## MODE frames (R187) -/

/-- A MODE frame with its one byte, by the mode requested and the mode in force (R187). -/
def serveMode (f : Frame) (p : Part) : Part :=
  match readOne f.payload with
  | some 0 => p.refuse f .badValue []
  | some 1 =>
    match p.mgmt.mode with
    | .run => p.ok f []
    | .startup => p.judgeRun f
    | .maintenance => p.judgeRun f
  | some 2 =>
    match p.mgmt.mode with
    | .startup => p.wrongMode f
    | .run => p.enterMaintenance.ok f []
    | .maintenance => p.ok f []
  | _ => p.refuse f .malformed []

/-! ## Warm restart (R191) -/

/-- The order gate's and the slot map's part of a restart for one crane (R74, R120). -/
def Part.restartOrder (p : Part) (c : Fin 4) : Part :=
  let p := (p.endOrder c false none).clearDest c
  let p := if (p.hook c).state = .empty then p.clearSource c else p
  p.setOrder c none

/-- Every zone after a restart: FREE, no management part, no waiters (R50). -/
def Zone.restart (z : Zone) : Zone := { z with grant := none, hold := none, waiters := [] }

/-- The arbiter after a restart (R50). -/
def Arbiter.restart (a : Arbiter) : Arbiter :=
  ⟨Vector.ofFn fun k => a.zones[k].restart, Vector.replicate 4 none, Vector.replicate 4 none⟩

/-- A RESTART frame (R191), in the order of its list. Each step takes the cranes from west to east, a DESIGN CHOICE (log 39). -/
def serveRestart (f : Frame) (p : Part) : Part :=
  if !f.payload.isEmpty then p.refuse f .malformed []
  else
    let p := craneList.foldl (fun p c => p.restartOrder c) p
    let p := { p with hooks := Vector.ofFn fun c => p.hooks[c].restart, arbiter := p.arbiter.restart }
    let p := Part.settleRequests 12 p
    let p := p.configured.foldl (fun p c => p.requestStop c .startup none) p
    (p.changeMode .startup 2).ok f []

/-! ## Power-on and the reset line (R192) -/

/-- The part starts: straps read, every unit at its power-on value, and MODE_CHANGED, with cause 3 POWER_ON or 4 RESET_LINE
(R164, R192). -/
def startPart (straps : BitVec 2) (cause : Nat) : Part :=
  (Part.reset (BitVec.ofNat 8 (24 + straps.toNat))).notify .modeChanged 0 0 0 cause

/-- The part held in reset (R192). -/
def Part.holdInReset (p : Part) : Part := { Part.reset p.link.station with inReset := true }

end Sys2Proof.Machine
end

