-- ==== Sys2Proof/Machine/Tables.lean ====
section
/-! DEFINITION. The nine tables (09, R178, R179): the form of TABLE_WRITE and TABLE_READ, and each owner's checks and effects. The
entry layouts are those of log 7. -/

namespace Sys2Proof.Machine

/-! ## The form of a table frame (R178) -/

/-- What a TABLE_WRITE payload is: an unknown table, a payload that does not fit, or its first index and entries (R178). -/
inductive TableWrite where
  | unknown
  | malformed
  | entries (first : Nat) (es : List (List Byte))
deriving DecidableEq, Repr

/-- The form check of a TABLE_WRITE (R178). -/
def readTableWrite (p : List Byte) : TableWrite :=
  match readTableHead p with
  | none => .malformed
  | some h =>
    match tableForm h.table with
    | none => .unknown
    | some (len, most) =>
      if h.count = 0 ∨ most < h.count ∨ p.length ≠ 4 + h.count * len then .malformed
      else .entries h.first (pieces len h.count (p.drop 4))

/-- Entries with their consecutive indices (R178). -/
def numbered {α : Type} : Nat → List α → List (Nat × α)
  | _, [] => []
  | n, a :: rest => (n, a) :: numbered (n + 1) rest

/-- Every entry parsed and in range, or the index of the first that fails. -/
def readAll {α : Type} (read : Nat → List Byte → Option α) : List (Nat × List Byte) → Except Nat (List (Nat × α))
  | [] => .ok []
  | (i, e) :: rest =>
    match read i e with
    | none => .error i
    | some a =>
      match readAll read rest with
      | .ok as => .ok ((i, a) :: as)
      | .error j => .error j

/-- A TABLE_WRITE for an owner: the answers of the form check, or the owner's judgment (R178). -/
def serveTable (owner : Frame → Nat → List (List Byte) → Part → Part) (f : Frame) (p : Part) : Part :=
  match readTableWrite f.payload with
  | .unknown => p.refuse f .badValue []
  | .malformed => p.refuse f .malformed []
  | .entries first es => owner f first es p

/-- A table writable in STARTUP: WRONG_MODE elsewhere, the whole frame's values checked, then the owner's effect, then OK. -/
def ownerStartup {α : Type} (read : Nat → List Byte → Option α) (apply : List (Nat × α) → Part → Part) (f : Frame)
    (first : Nat) (es : List (List Byte)) (p : Part) : Part :=
  if p.mgmt.mode ≠ .startup then p.wrongMode f
  else
    match readAll read (numbered first es) with
    | .error i => p.refuseAt f .badValue i
    | .ok as => (apply as p).ok f []

/-! ## The crane table (R1, R2) -/

/-- A crane table entry in 30 bytes, the fields in the order of R1 (log 7). -/
def CraneEntry.bytes (e : CraneEntry) : List Byte :=
  le 1 (bit 0 e.configured) ++ le 2 e.westExt ++ le 2 e.eastExt ++ le 2 e.margin ++ le 2 e.reaction ++ le 2 e.decel
    ++ le 2 e.vmax ++ le 2 e.yMin ++ le 2 e.yMax ++ le 2 e.zSafe ++ le 3 e.parkX ++ le 2 e.parkY ++ le 1 (bit 0 e.giveWay)
    ++ le 1 e.dflt.code ++ le 2 e.tong ++ le 2 e.tolerance

/-- The ranges of R1. -/
def CraneEntry.inRange (e : CraneEntry) : Bool :=
  decide (e.westExt ≤ 20000) && decide (e.eastExt ≤ 20000) && decide (e.margin ≤ 5000) && decide (e.reaction ≤ 2000)
    && decide (100 ≤ e.decel) && decide (e.decel ≤ 2000) && decide (100 ≤ e.vmax) && decide (e.vmax ≤ 4095)
    && decide (e.yMin ≤ e.yMax) && decide (e.zSafe ≤ 16383) && decide (e.parkX ≤ 262143) && decide (e.tolerance ≤ 2000)

/-- A crane table entry as a frame carries it; none when its class names none. A yes/no byte is read by its bit 0 and is never out of
range, a DESIGN CHOICE (log 7). -/
def parseCraneEntry (b : List Byte) : Option CraneEntry :=
  match readClass (field b 25 1) with
  | some (some cls) =>
    some { configured := flag b 0 0, westExt := field b 1 2, eastExt := field b 3 2, margin := field b 5 2,
           reaction := field b 7 2, decel := field b 9 2, vmax := field b 11 2, yMin := field b 13 2,
           yMax := field b 15 2, zSafe := field b 17 2, parkX := field b 19 3, parkY := field b 22 2,
           giveWay := flag b 24 0, dflt := cls, tong := field b 26 2, tolerance := field b 28 2 }
  | _ => none

/-- A crane table entry with its index checked (R2). -/
def readCraneEntry (i : Nat) (b : List Byte) : Option CraneEntry :=
  if i < 4 then (parseCraneEntry b).filter CraneEntry.inRange else none

/-- The fault mark of a line is cleared (R72). -/
def Part.clearFault (p : Part) (n : Nat) : Part :=
  { p with lines := match p.lines.output n with
      | some o => p.lines.setOutput n { o with fault := false }
      | none => p.lines }

/-- The part with a crane's table entry replaced. -/
def Part.setEntry (p : Part) (c : Fin 4) (e : CraneEntry) : Part :=
  { p with tracker := { p.tracker with entries := p.tracker.entries.set c e } }

/-- A crane entry changes its configured field: record, hook, latch and order return to their first state, every pair mark is
cleared, and a crane that becomes configured receives STARTUP (R2, R54, R67, R69, R72, R95). -/
def Part.craneChanged (p : Part) (c : Fin 4) (e : CraneEntry) : Part :=
  let p := (p.setEntry c e).setRecord c CraneRecord.reset
  let p := ((p.resetHook c).emptyLatch c).setOrder c none
  let p := { p with tracker := { p.tracker with crossed := Vector.replicate 4 false } }
  if e.configured then p.requestStop c .startup none else p.clearFault c.val

/-- A crane table entry is applied (R2). -/
def applyCraneEntry (i : Nat) (e : CraneEntry) (p : Part) : Part :=
  match craneOf i with
  | none => p
  | some c => if e.configured = (p.entry c).configured then p.setEntry c e else p.craneChanged c e

/-- A TABLE_WRITE of the crane table (R2). -/
def serveCraneTable : Frame → Part → Part :=
  serveTable (ownerStartup readCraneEntry fun es p => es.foldl (fun p e => applyCraneEntry e.1 e.2 p) p)

/-! ## The zone table (R23) -/

/-- A zone table entry (R23). -/
structure ZoneEntry where
  defined : Bool
  start : Nat
  cap : Nat
  loaded : Bool
  bay : Option (Fin 6)
deriving DecidableEq, Repr

/-- The table entry of a zone (R23). -/
def Zone.entry (z : Zone) : ZoneEntry := ⟨z.defined, z.start, z.cap, z.loaded, z.bay⟩

/-- A zone table entry in 7 bytes, the fields in the order of R23; the last byte holds loaded passage in bit 0 and the bay
reference above it, 127 when absent, so that eight entries fit a frame (R178, log 7). -/
def ZoneEntry.bytes (e : ZoneEntry) : List Byte :=
  le 1 (bit 0 e.defined) ++ le 3 e.start ++ le 2 e.cap ++ le 1 (bit 0 e.loaded + 2 * e.bay.elim 127 Fin.val)

/-- A zone table entry with its index and fields checked (R23). -/
def readZoneEntry (i : Nat) (b : List Byte) : Option ZoneEntry :=
  let bay := field b 6 1 / 2
  if i < 32 ∧ field b 1 3 ≤ 262143 ∧ field b 4 2 ≤ 4095 ∧ (bay < 6 ∨ bay = 127) then
    some ⟨flag b 0 0, field b 1 3, field b 4 2, flag b 6 0, bayOf bay⟩
  else none

/-- A zone with its table entry replaced: a zone that is defined before and after keeps its dynamic state, any other starts
afresh (R23). -/
def Zone.withEntry (z : Zone) (e : ZoneEntry) : Zone :=
  let base := if z.defined && e.defined then z else Zone.reset
  { base with defined := e.defined, start := e.start, cap := e.cap, loaded := e.loaded, bay := e.bay }

/-- A TABLE_WRITE of the zone table (R23). -/
def serveZoneTable : Frame → Part → Part :=
  serveTable (ownerStartup readZoneEntry fun es p =>
    es.foldl (fun p e => p.setZone e.1 ((p.zone e.1).withEntry e.2)) p)

/-! ## The entry table (R51) -/

/-- An entry point in 8 bytes (R51, log 7). -/
def EntryPoint.bytes (e : EntryPoint) : List Byte := le 1 (bit 0 e.defined) ++ le 3 e.x ++ le 2 e.y ++ le 2 e.z

/-- An entry point with its index and fields checked (R51). -/
def readEntryPoint (i : Nat) (b : List Byte) : Option EntryPoint :=
  if i < 4 ∧ field b 1 3 ≤ 262143 ∧ field b 6 2 ≤ 16383 then some ⟨flag b 0 0, field b 1 3, field b 4 2, field b 6 2⟩
  else none

/-- An entry point is written (R51). -/
def applyEntryPoint (i : Nat) (e : EntryPoint) (p : Part) : Part :=
  match craneOf i with
  | none => p
  | some k => { p with gate := { p.gate with entryPoints := p.gate.entryPoints.set k e } }

/-- A TABLE_WRITE of the entry table (R51). -/
def serveEntryTable : Frame → Part → Part :=
  serveTable (ownerStartup readEntryPoint fun es p => es.foldl (fun p e => applyEntryPoint e.1 e.2 p) p)

/-! ## The block table (R97) -/

/-- A block table entry in 8 bytes (R97, log 7). -/
def Block.bytes (b : Block) : List Byte := le 1 (bit 0 b.defined) ++ le 4 b.limit ++ le 1 b.cost ++ le 2 b.overhang

/-- A block table entry with its index and fields checked (R97). -/
def readBlock (i : Nat) (b : List Byte) : Option (Fin 8 × Block) :=
  if h : i < 8 then
    if field b 6 2 ≤ 2000 then some (⟨i, h⟩, ⟨flag b 0 0, field b 1 4, field b 5 1, field b 6 2⟩) else none
  else none

/-- A block to which a defined slot belongs (R97). -/
def SlotMap.blockUsed (m : SlotMap) (b : Fin 8) : Bool := m.slots.any fun e => e.2.geo.block == b

/-- Why a block table entry is not applied: WRONG_MODE stands for the answer of that name (R97). -/
def Part.blockCheck (p : Part) (k : Fin 8) (b : Block) : Option Reason :=
  let old := p.slots.blocks[k]
  if p.mgmt.mode ≠ .startup ∧ b.defined ≠ old.defined then some .wrongMode
  else if old.defined && !b.defined && p.slots.blockUsed k then some .inUse
  else if b.limit < p.slots.committedSum k then some .floorLimit
  else none

/-- The first entry of a block write that fails, with its reason (R97). -/
def Part.blockFailure (p : Part) : List (Nat × List Byte) → Option (Reason × Nat)
  | [] => none
  | (i, e) :: rest =>
    match readBlock i e with
    | none => some (.badValue, i)
    | some (k, b) =>
      match p.blockCheck k b with
      | some r => some (r, i)
      | none => Part.blockFailure p rest

/-- A block table entry is applied (R97). -/
def applyBlock (i : Nat) (e : List Byte) (m : SlotMap) : SlotMap :=
  match readBlock i e with
  | some (k, b) => { m with blocks := m.blocks.set k b }
  | none => m

/-- The block table's owner (R97). -/
def ownerBlocks (f : Frame) (first : Nat) (es : List (List Byte)) (p : Part) : Part :=
  match p.blockFailure (numbered first es) with
  | some (.wrongMode, _) => p.wrongMode f
  | some (r, i) => p.refuseAt f r i
  | none => (p.onSlots fun m => (numbered first es).foldl (fun m e => applyBlock e.1 e.2 m) m).ok f []

/-- A TABLE_WRITE of the block table (R97). -/
def serveBlockTable : Frame → Part → Part := serveTable ownerBlocks

/-! ## The slot geometry table (R99) -/

/-- The supports of a tier as two numbers, 0 for tier 1. -/
def Tier.supports (t : Tier) : Nat × Nat :=
  match t with
  | .floor => (0, 0)
  | .upper a b => (a, b)

/-- A slot geometry entry with its index in 21 bytes (R99, log 7); an undefined slot has zeros after its index. -/
def geometryBytes (i : Nat) (g : Option Geometry) : List Byte :=
  match g with
  | none => le 2 i ++ le 19 0
  | some g =>
    le 2 i ++ le 1 1 ++ le 1 g.block.val ++ le 1 g.row ++ le 1 (if g.tier.ground then 1 else 2) ++ le 3 g.x ++ le 2 g.y
      ++ le 2 g.z ++ le 2 g.tier.supports.1 ++ le 2 g.tier.supports.2 ++ le 2 g.maxDiameter ++ le 2 g.maxWidth

/-- The tier of a slot geometry entry with its supports in range (R99). -/
def readTier (b : List Byte) : Option Tier :=
  match field b 5 1 with
  | 1 => some .floor
  | 2 => if field b 13 2 < 1536 ∧ field b 15 2 < 1536 then some (.upper (field b 13 2) (field b 15 2)) else none
  | _ => none

/-- A slot geometry entry with every field in range: its index, and its geometry or that it marks its slot undefined (R99). -/
def readGeometry (b : List Byte) : Option (Nat × Option Geometry) :=
  let i := field b 0 2
  if 1536 ≤ i then none
  else if !flag b 2 0 then some (i, none)
  else if h : field b 3 1 < 8 then
    match readTier b with
    | none => none
    | some tier =>
      if field b 4 1 ≤ 15 ∧ field b 6 3 ≤ 262143 ∧ field b 11 2 ≤ 16383 ∧ 1 ≤ field b 17 2 ∧ 1 ≤ field b 19 2 then
        some (i, some ⟨⟨field b 3 1, h⟩, field b 4 1, tier, field b 6 3, field b 9 2, field b 11 2, field b 17 2,
          field b 19 2⟩)
      else none
  else none

/-- Every entry of a geometry write, or the index of the first out of range (R99). -/
def readGeometries : List (List Byte) → Except Nat (List (Nat × Option Geometry))
  | [] => .ok []
  | e :: rest =>
    match readGeometry e with
    | none => .error (field e 0 2)
    | some g =>
      match readGeometries rest with
      | .ok gs => .ok (g :: gs)
      | .error i => .error i

/-- A geometry entry is applied: a new slot starts FREE, a redefined one keeps its state, an undefined one loses its contents
(R99). Of two entries of one frame for the same slot the later decides, a DESIGN CHOICE (log 43). -/
def SlotMap.applyGeometry (m : SlotMap) (e : Nat × Option Geometry) : SlotMap :=
  match e.2 with
  | none => { m with slots := slotDrop e.1 m.slots }
  | some g =>
    match m.slot e.1 with
    | some s => { m with slots := slotPut e.1 { s with geo := g } m.slots }
    | none => { m with slots := slotPut e.1 ⟨g, .free⟩ m.slots }

/-- A support is a defined tier-1 slot of the same block and row (R99). -/
def SlotMap.carries (m : SlotMap) (g : Geometry) (i : Nat) : Bool :=
  (m.slot i).any fun s => s.geo.tier.ground && s.geo.block == g.block && s.geo.row == g.row

/-- A slot's supports are sound (R99). -/
def SlotMap.sound (m : SlotMap) (s : Slot) : Bool :=
  match s.geo.tier with
  | .floor => true
  | .upper a b => a != b && m.carries s.geo a && m.carries s.geo b

/-- A slot's contents let its geometry change: undefined, FREE or BLOCKED (R99). -/
def SlotMap.changeable (m : SlotMap) (i : Nat) : Bool :=
  (m.slot i).all fun s => s.contents == .free || s.contents == .blocked

/-- The slot geometry table's owner: the frame is checked whole, and then each entry is applied (R99). The entries are applied in the
frame's order, which matters only for a frame that names a slot twice, a DESIGN CHOICE (log 43). -/
def ownerGeometry (f : Frame) (_first : Nat) (es : List (List Byte)) (p : Part) : Part :=
  if p.mgmt.mode ≠ .startup then p.wrongMode f
  else
    match readGeometries es with
    | .error i => p.refuseAt f .badValue i
    | .ok gs =>
      match gs.find? fun e => e.2.any fun g => !p.slots.blocks[g.block].defined with
      | some e => p.refuseAt f .badValue e.1
      | none =>
        match gs.find? fun e => !p.slots.changeable e.1 with
        | some e => p.refuseAt f .inUse e.1
        | none =>
          let m := gs.foldl SlotMap.applyGeometry p.slots
          match m.slots.find? fun e => !m.sound e.2 with
          | some e => p.refuseAt f .badValue e.1
          | none => { p with slots := m }.ok f []

/-- A TABLE_WRITE of the slot geometry table (R99). -/
def serveGeometryTable : Frame → Part → Part := serveTable ownerGeometry

/-! ## The group routing map (R127) -/

/-- A routing entry is written (R127). -/
def applyRouting (i : Nat) (e : List Byte) (p : Part) : Part :=
  if h : i < 8 then
    { p with engine := { p.engine with routing := p.engine.routing.set i (BitVec.ofNat 8 (field e 0 1)) } }
  else p

/-- The group routing map's owner (R127). -/
def ownerGroupMap (f : Frame) (first : Nat) (es : List (List Byte)) (p : Part) : Part :=
  if 8 < first + es.length then p.refuse f .badValue []
  else ((numbered first es).foldl (fun p e => applyRouting e.1 e.2 p) p).ok f []

/-- A TABLE_WRITE of the group routing map (R127). -/
def serveGroupMap : Frame → Part → Part := serveTable ownerGroupMap

/-! ## The calibration tables (R75, R76) -/

/-- A calibration point in 5 bytes (R75, log 7). -/
def CalPoint.bytes (q : CalPoint) : List Byte := leInt 3 q.count ++ le 2 q.kg

/-- A calibration point as a frame carries it. -/
def readCalPoint (b : List Byte) : CalPoint := ⟨fieldInt b 0 3, field b 3 2⟩

/-- Counts rise strictly and weights rise or stay equal (R75). -/
def risingPoints : List CalPoint → Bool
  | a :: b :: rest => decide (a.count < b.count) && decide (a.kg ≤ b.kg) && risingPoints (b :: rest)
  | _ => true

/-- The calibration tables' owner (R75, R76). -/
def ownerCalibration (f : Frame) (first : Nat) (es : List (List Byte)) (p : Part) : Part :=
  let points := es.map readCalPoint
  match craneOf first with
  | none => p.refuse f .badValue []
  | some c =>
    if points.length < 2 || !risingPoints points then p.refuse f .badValue []
    else
      let p := p.setHook c { p.hook c with staged := some points }
      (if (p.hook c).state = .empty then p.activateStaged c else p).ok f []

/-- A TABLE_WRITE of a calibration table (R75). -/
def serveCalibration : Frame → Part → Part := serveTable ownerCalibration

/-! ## The bay table (R135, R136) -/

/-- R135: 0 EAST, 1 WEST (log 7). -/
def Direction.code : Direction → Nat
  | .east => 0
  | .west => 1

/-- A bay table entry in 29 bytes, the fields in the order of R135 (log 7). -/
def BayEntry.bytes (e : BayEntry) : List Byte :=
  le 1 (bit 0 e.configured) ++ le 1 e.station ++ le 4 e.mask.toNat ++ le 3 e.axle ++ le 1 e.front.code ++ le 2 e.yLo
    ++ le 2 e.yHi ++ le 2 e.cab ++ le 1 (bit 0 e.scale) ++ le 2 e.scaleTolerance ++ le 2 e.allowance ++ le 2 e.settle
    ++ le 2 e.rearm ++ le 2 e.flashOn ++ le 2 e.flashOff

/-- The ranges of R135. -/
def BayEntry.inRange (e : BayEntry) : Bool :=
  decide (16 ≤ e.station) && decide (e.station ≤ 21) && decide (e.axle ≤ 262143) && decide (e.yLo ≤ e.yHi)
    && decide (e.cab ≤ 20000) && decide (5 ≤ e.allowance) && decide (e.allowance ≤ 1000) && decide (e.settle ≤ 2000)
    && decide (500 ≤ e.rearm) && decide (e.rearm ≤ 60000) && decide (50 ≤ e.flashOn) && decide (e.flashOn ≤ 5000)
    && decide (50 ≤ e.flashOff) && decide (e.flashOff ≤ 5000)

/-- A bay table entry as a frame carries it; none when its orientation names none. A yes/no byte is read by its bit 0 (log 7). -/
def parseBayEntry (b : List Byte) : Option BayEntry :=
  let make := fun front =>
    ({ configured := flag b 0 0, station := field b 1 1, mask := BitVec.ofNat 32 (field b 2 4), axle := field b 6 3,
       front := front, yLo := field b 10 2, yHi := field b 12 2, cab := field b 14 2, scale := flag b 16 0,
       scaleTolerance := field b 17 2, allowance := field b 19 2, settle := field b 21 2, rearm := field b 23 2,
       flashOn := field b 25 2, flashOff := field b 27 2 } : BayEntry)
  match field b 9 1 with
  | 0 => some (make .east)
  | 1 => some (make .west)
  | _ => none

/-- A bay table entry with its index checked (R135). -/
def readBayEntry (i : Nat) (b : List Byte) : Option BayEntry :=
  if i < 6 then (parseBayEntry b).filter BayEntry.inRange else none

/-- Another configured bay names the same bay unit station (R135). -/
def Part.stationTaken (p : Part) (b : Fin 6) (e : BayEntry) : Bool :=
  e.configured && bayList.any fun d => d != b && (p.bayEntry d).configured && (p.bayEntry d).station == e.station

/-- The part with a bay's table entry replaced. -/
def Part.setBayEntry (p : Part) (b : Fin 6) (e : BayEntry) : Part :=
  { p with bays := { p.bays with entries := p.bays.entries.set b e } }

/-- A bay becomes configured (R136, R137). -/
def Part.bayJoins (p : Part) (b : Fin 6) (e : BayEntry) : Part :=
  let p := ((p.setBayEntry b e).setBay b BayRecord.reset).commandLamps b true false
  if p.bays.scan.isNone then p.startPoll b else p

/-- A bay stops being configured (R136, R72, R137). -/
def Part.bayLeaves (p : Part) (b : Fin 6) (e : BayEntry) : Part :=
  let mask := (p.bayEntry b).mask
  let p := p.setBayEntry b e
  let p := if (p.bay b).plan.isSome then (p.discardPlan b).derive b else p
  let p := p.clearBayHold b mask
  let p := (p.setBay b { p.bay b with rearmAt := none, flashAt := none }).commandLamps b false false
  let p := (p.clearFault (8 + b.val)).clearFault (16 + b.val)
  if p.bays.scan.any fun sc => sc.bay == b then p.moveScan b else p

/-- A configured bay takes a new entry; a changed mask moves the bay part of its hold (R136). -/
def Part.bayStays (p : Part) (b : Fin 6) (e : BayEntry) : Part :=
  let old := (p.bayEntry b).mask
  let p := p.setBayEntry b e
  if (p.bay b).causes.driver then (p.clearBayHold b (old &&& ~~~e.mask)).setBayHold b (e.mask &&& ~~~old) else p

/-- A bay table entry is applied (R136). -/
def Part.applyBayEntry (p : Part) (b : Fin 6) (e : BayEntry) : Part :=
  match (p.bayEntry b).configured, e.configured with
  | true, true => p.bayStays b e
  | false, true => p.bayJoins b e
  | true, false => p.bayLeaves b e
  | false, false => p.setBayEntry b e

/-- The bay table's owner (R135, R136); a frame carries one entry. -/
def ownerBays (f : Frame) (first : Nat) (es : List (List Byte)) (p : Part) : Part :=
  if p.mgmt.mode ≠ .startup then p.wrongMode f
  else
    match bayOf first, es.head?.bind fun e => readBayEntry first e with
    | some b, some e => if p.stationTaken b e then p.refuseAt f .badValue first else (p.applyBayEntry b e).ok f []
    | _, _ => p.refuseAt f .badValue first

/-- A TABLE_WRITE of the bay table (R135). -/
def serveBayTable : Frame → Part → Part := serveTable ownerBays

/-! ## The parameter table (R178) -/

/-- A parameter's value in force (R178). -/
def Params.get (q : Params) : Nat → Nat
  | 0 => q.length
  | 1 => q.staleLimit
  | 2 => q.sampleInterval
  | 3 => q.window
  | 4 => q.settleBand
  | 5 => q.engage
  | 6 => q.release
  | 7 => q.tareLimit
  | 8 => q.mismatch
  | 9 => q.weighTimeout
  | 10 => q.reservationTime
  | 11 => q.overflow.getD 255
  | 12 => q.ground
  | 13 => q.mix
  | _ => 0

/-- The parameters with one replaced (R178). -/
def Params.put (q : Params) (i v : Nat) : Params :=
  match i with
  | 0 => { q with length := v }
  | 1 => { q with staleLimit := v }
  | 2 => { q with sampleInterval := v }
  | 3 => { q with window := v }
  | 4 => { q with settleBand := v }
  | 5 => { q with engage := v }
  | 6 => { q with release := v }
  | 7 => { q with tareLimit := v }
  | 8 => { q with mismatch := v }
  | 9 => { q with weighTimeout := v }
  | 10 => { q with reservationTime := v }
  | 11 => { q with overflow := if v = 255 then none else some v }
  | 12 => { q with ground := v }
  | 13 => { q with mix := v }
  | _ => q

/-- A parameter's value lies in its range (R4, R71, R77, R112, R127). -/
def paramInRange (i v : Nat) : Bool :=
  match i with
  | 0 => decide (1 ≤ v) && decide (v ≤ 262144)
  | 1 => decide (50 ≤ v) && decide (v ≤ 1000)
  | 2 => v == 1 || v == 2 || v == 5 || v == 10 || v == 20
  | 3 => decide (4 ≤ v) && decide (v ≤ 32)
  | 4 => decide (v ≤ 65535)
  | 5 => decide (1 ≤ v) && decide (v ≤ 65535)
  | 6 => decide (v ≤ 65534)
  | 7 => decide (v ≤ 65535)
  | 8 => decide (v ≤ 65535)
  | 9 => decide (2 ≤ v) && decide (v ≤ 120)
  | 10 => decide (1 ≤ v) && decide (v ≤ 3600)
  | 11 => decide (v ≤ 7) || v == 255
  | 12 => decide (v ≤ 255)
  | 13 => decide (v ≤ 255)
  | _ => false

/-- A parameter entry with its index and value checked (R178). -/
def readParam (i : Nat) (b : List Byte) : Option Nat := if paramInRange i (field b 0 4) then some (field b 0 4) else none

/-- New parameters take effect: a new window length empties every accumulator (R77). -/
def Part.setParams (p : Part) (q : Params) : Part :=
  if q.window = p.params.window then { p with params := q }
  else
    { p with params := q, hooks := Vector.ofFn fun c => { p.hooks[c] with acc := Accumulator.reset } }

/-- The parameter table's owner (R178): indices and ranges, the threshold pair, then L outside STARTUP. -/
def ownerParams (f : Frame) (first : Nat) (es : List (List Byte)) (p : Part) : Part :=
  match readAll readParam (numbered first es) with
  | .error i => p.refuseAt f .badValue i
  | .ok vs =>
    let q := vs.foldl (fun q e => q.put e.1 e.2) p.params
    if q.engage ≤ q.release then p.refuseAt f .badValue (max 5 first)
    else if p.mgmt.mode ≠ .startup ∧ q.length ≠ p.params.length then p.wrongMode f
    else (p.setParams q).ok f []

/-- A TABLE_WRITE of the parameter table, and any TABLE_WRITE that names no table (R178, log 9). -/
def serveParams : Frame → Part → Part := serveTable ownerParams

/-! ## TABLE_READ (R179) -/

/-- How many entries a table has (R178). -/
def tableSize : Nat → Nat
  | 1 => 4
  | 2 => 32
  | 3 => 4
  | 4 => 8
  | 5 => 1536
  | 6 => 8
  | 7 => 4
  | 8 => 6
  | 9 => 14
  | _ => 0

/-- One entry of a table in the layout a TABLE_WRITE of it uses (R179). -/
def Part.entryBytes (p : Part) (table i : Nat) : List Byte :=
  match table with
  | 1 => (craneOf i).elim [] fun c => (p.entry c).bytes
  | 2 => (p.zone i).entry.bytes
  | 3 => (craneOf i).elim [] fun k => p.gate.entryPoints[k].bytes
  | 4 => if h : i < 8 then p.slots.blocks[i].bytes else []
  | 5 => geometryBytes i ((p.slots.slot i).map Slot.geo)
  | 6 => if h : i < 8 then [p.engine.routing[i]] else []
  | 8 => (bayOf i).elim [] fun b => (p.bayEntry b).bytes
  | 9 => le 4 (p.params.get i)
  | _ => []

/-- Entries from an index upward. -/
def Part.entriesFrom (p : Part) (table : Nat) : Nat → Nat → List Byte
  | 0, _ => []
  | n + 1, i => p.entryBytes table i ++ Part.entriesFrom p table n (i + 1)

/-- The calibration table a read returns, with its mark: 0 absent, 1 ACTIVE, 2 STAGED (R76, log 8). -/
def Hook.calibration (h : Hook) : Nat × List CalPoint :=
  match h.staged, h.active with
  | some t, _ => (2, t)
  | none, some t => (1, t)
  | none, none => (0, [])

/-- The data of a read of a calibration table: the number of points returned, the mark, and that many of its points from the first
on, at most as many as were asked for and as fit the 54 bytes after the mark (R76, R179, log 8). -/
def Hook.calibrationBytes (h : Hook) (count : Nat) : List Byte :=
  let points := h.calibration.2.take (min count (54 / 5))
  le 1 points.length ++ le 1 h.calibration.1 ++ (points.map CalPoint.bytes).flatten

/-- The data of a TABLE_READ (R179). -/
def Part.readData (p : Part) (h : TableHead) (len : Nat) : List Byte :=
  if h.table = 7 then (craneOf h.first).elim [] fun c => (p.hook c).calibrationBytes h.count
  else
    let n := min h.count (min (tableSize h.table - h.first) (55 / len))
    le 1 n ++ p.entriesFrom h.table n h.first

/-- A TABLE_READ frame (R179). -/
def serveTableRead (f : Frame) (p : Part) : Part :=
  if f.payload.length ≠ 4 then p.refuse f .malformed []
  else
    match readTableHead f.payload with
    | none => p.refuse f .malformed []
    | some h =>
      match tableForm h.table with
      | none => p.refuse f .badValue []
      | some (len, _) => if h.first < tableSize h.table then p.ok f (p.readData h len) else p.refuse f .badValue []

end Sys2Proof.Machine
end

