-- ==== Sys2Proof/Machine/Queries.lean ====
section
/-! DEFINITION. Queries (09, R180, R181): the bytes of each kind's answer (log 8), its parts, and clear-counts. -/

namespace Sys2Proof.Machine

/-! ## Fields of answers (log 8) -/

/-- An optional number: a presence byte, then the number or zeros. -/
def optBytes (k : Nat) (o : Option Nat) : List Byte :=
  match o with
  | none => le (k + 1) 0
  | some v => le 1 1 ++ le k v

/-- An optional id. -/
def optIdBytes (o : Option CoilId) : List Byte := optBytes 4 (o.map BitVec.toNat)

/-- A truth value as one byte. -/
def flagByte (b : Bool) : List Byte := le 1 (bit 0 b)

/-- A list of pieces padded with zeros to a length. -/
def padded (len : Nat) (b : List Byte) : List Byte := b ++ List.replicate (len - b.length) 0

/-- An optional record: a presence byte, then the record or zeros. -/
def optRecord {α : Type} (len : Nat) (bytes : α → List Byte) (o : Option α) : List Byte :=
  padded (len + 1) (match o with | none => le 1 0 | some a => le 1 1 ++ bytes a)

/-! ## Records -/

/-- An output's commanded level, accepted level and fault mark (R71, R72). -/
def OutLine.bytes (o : OutLine) : List Byte := flagByte o.commanded ++ le 1 o.input.accepted.code ++ flagByte o.fault

/-- A last accepted POSITION with its arrival time (R5): 21 bytes. -/
def Telegram.bytes (t : Telegram) : List Byte :=
  [t.seq] ++ le 3 t.x ++ le 2 t.y ++ le 2 t.z ++ leInt 2 t.vx ++ leInt 2 t.vy ++ le 1 t.gripper.code ++ le 1 t.drive.code
    ++ le 2 t.tag ++ leTime t.arrival

/-- An envelope (R5): 13 bytes. -/
def Envelope.bytes (e : Envelope) : List Byte :=
  le 3 e.lo ++ le 3 e.hi ++ optRecord 2 (fun v : Nat × Nat => le 1 v.1 ++ le 1 v.2) e.cover ++ leTime e.time

/-- A crane record (R5). -/
def CraneRecord.bytes (r : CraneRecord) : List Byte :=
  le 1 r.tracking.code ++ optRecord 21 Telegram.bytes r.last ++ optRecord 13 Envelope.bytes r.envelope ++ le 2 r.late
    ++ le 2 r.clamp ++ le 2 r.staleCount ++ le 2 r.malformed

/-- R25: 0 ORDER, 1 GIVE_WAY (log 8). -/
def ClaimOrigin.code : ClaimOrigin → Nat
  | .order => 0
  | .giveWay => 1

/-- A claim (R27): 3 bytes. -/
def Claim.bytes (c : Claim) : List Byte := le 1 c.zone ++ le 1 c.cls.code ++ le 1 c.origin.code

/-- A location in the form of R167, padded to 6 bytes. -/
def Location.bytes (l : Location) : List Byte :=
  padded 6 (match l with
    | .coord x y => le 1 0 ++ le 3 x ++ le 2 y
    | .entry e => le 1 1 ++ le 1 e
    | .slot s => le 1 2 ++ le 2 s
    | .bayPos b k => le 1 3 ++ le 1 b ++ le 1 k)

/-- The coil data of a PICK at ENTRY in the form of R167: 12 bytes. -/
def EntryData.bytes (d : EntryData) : List Byte :=
  le 1 (bit 0 d.id.isSome + bit 1 d.diameter.isSome + bit 2 d.width.isSome) ++ leId d.id ++ le 2 d.declared
    ++ le 2 (d.diameter.getD 0) ++ le 2 (d.width.getD 0) ++ le 1 d.group

/-- The order kinds, 0 GOTO to 3 PARK (log 8). -/
def OrderKind.code : OrderKind → Nat
  | .goto => 0
  | .pick => 1
  | .place => 2
  | .park => 3

/-- The states of an order, 0 WAITING to 3 ENDED (log 8). -/
def OrderState.code : OrderState → Nat
  | .waiting => 0
  | .partly => 1
  | .forwarded => 2
  | .ended => 3

/-- A pending crane command: its frame kind and its fields (R61): 10 bytes. -/
def Command.bytes (c : Command) : List Byte := [c.verb.kind.code] ++ le 3 c.x ++ le 2 c.y ++ le 2 c.z ++ le 2 c.travel

/-- An order record (R54): 60 bytes. -/
def Order.bytes (o : Order) : List Byte :=
  le 1 o.kind.code ++ le 2 o.tag ++ optRecord 6 Location.bytes o.loc ++ optRecord 12 EntryData.bytes o.data
    ++ le 3 o.target.x ++ le 2 o.target.y ++ le 2 o.target.z ++ le 3 o.permitted ++ le 1 o.cls.code ++ le 2 o.speed
    ++ le 1 o.state.code ++ le 1 (reasonCode o.short) ++ optBytes 1 (o.lastSeq.map BitVec.toNat) ++ flagByte o.lastDone
    ++ optRecord 10 Command.bytes o.pending

/-- A grant run (R26): 2 bytes. -/
def Run.bytes (r : Run) : List Byte := le 1 r.lo ++ le 1 r.hi

/-- CRANE: record and A, grant run and claim, order record, stop latch, stop line (R180). -/
def Part.craneBytes (p : Part) (c : Fin 4) : List Byte :=
  flagByte (p.entry c).configured ++ (p.record c).bytes ++ le 2 (p.entry c).allowance ++ optRecord 2 Run.bytes (p.run c)
    ++ optRecord 3 Claim.bytes (p.claim c) ++ optRecord 60 Order.bytes (p.order c) ++ le 1 (p.latch c).causes.flags
    ++ le 1 (p.latch c).bays.flags ++ p.lines.stop[c].bytes

/-- A waiting claim of a zone (R25): 3 bytes. -/
def Waiter.bytes (w : Waiter) : List Byte := le 1 w.crane.val ++ le 1 w.cls.code ++ le 1 w.origin.code

/-- A management part: 0 absent, 1 with its expiry and the remaining time in milliseconds, 2 INDEFINITE (R25): 9 bytes. -/
def holdBytes (now : Time) (h : Option HoldPart) : List Byte :=
  padded 9 (match h with
    | none => le 1 0
    | some (.till t) => le 1 1 ++ leTime t ++ leTime (t - now)
    | some .indefinite => le 1 2)

/-- ZONE: table entry, end and dynamic state (R25, R180). The end of an entry that is not defined is 0, a DESIGN CHOICE (log 33). -/
def Part.zoneBytes (p : Part) (k : Nat) : List Byte :=
  let z := p.zone k
  z.entry.bytes ++ le 3 (if z.defined then p.zoneEnd k else 0) ++ optBytes 1 (z.grant.map Fin.val) ++ flagByte z.blocked
    ++ holdBytes p.now z.hold ++ le 1 z.bayHold.flags ++ le 1 z.waiters.length ++ padded 6 (z.waiters.map Waiter.bytes).flatten

/-- A coil record (R83, R100): 15 bytes. -/
def Coil.bytes (q : Coil) : List Byte :=
  optIdBytes q.id ++ le 2 q.weight ++ le 1 q.quality.code ++ optBytes 2 q.diameter ++ optBytes 2 q.width ++ le 1 q.group

/-- A reservation record (R100): 22 bytes. -/
def Reservation.bytes (r : Reservation) : List Byte :=
  le 2 r.number ++ optIdBytes r.id ++ le 2 r.weight ++ optBytes 2 r.diameter ++ optBytes 2 r.width ++ le 1 r.group
    ++ leTime r.expiry ++ flagByte r.lapsed

/-- A slot's contents: the state's code in the order of R100, then its records (R100): a RESERVED slot with the time
remaining. -/
def Contents.bytes (now : Time) (c : Contents) : List Byte :=
  padded 27 (match c with
    | .free => le 1 0
    | .reserved r => le 1 1 ++ r.bytes ++ leTime (r.expiry - now)
    | .incoming r c w => le 1 2 ++ r.bytes ++ le 1 c.val ++ le 2 w
    | .occupied q t => le 1 3 ++ q.bytes ++ leTime t
    | .outgoing q t c => le 1 4 ++ q.bytes ++ leTime t ++ le 1 c.val
    | .blocked => le 1 5)

/-- SLOT: geometry and contents (R100, R180). -/
def Part.slotBytes (p : Part) (i : Nat) : List Byte :=
  geometryBytes i ((p.slots.slot i).map Slot.geo) ++ ((p.slots.slot i).map Slot.contents |>.elim (le 27 0) (Contents.bytes p.now))

/-- One block's floor limit and four sums (R98), 5 bytes for each sum. -/
def SlotMap.blockBytes (m : SlotMap) (b : Fin 8) : List Byte :=
  le 4 m.blocks[b].limit ++ le 5 (m.occupiedSum b) ++ le 5 (m.incomingSum b) ++ le 5 (m.reservedSum b) ++ le 5 (m.committedSum b)

/-- BLOCK_SUMS: floor limit and sums of all eight blocks (R98, R180). -/
def Part.blockSumsBytes (p : Part) : List Byte := (blockList.map p.slots.blockBytes).flatten

/-- The hook states, 0 EMPTY to 3 WEIGHED (log 8). -/
def HookState.code : HookState → Nat
  | .empty => 0
  | .gripped => 1
  | .lifting => 2
  | .weighed => 3

/-- A hook's source (R83): 17 bytes. -/
def Source.bytes (s : Source) : List Byte :=
  (match s.place with
    | .slot i => padded 15 (le 1 1 ++ le 2 i)
    | .entry e d => le 1 2 ++ le 2 e ++ d.bytes) ++ le 2 s.tag

/-- A hook's destination (R83): 8 bytes. -/
def Destination.bytes (d : Destination) : List Byte :=
  (match d.place with
    | .slot i => le 1 1 ++ le 2 i
    | .bayPos b k => le 1 2 ++ le 1 b.val ++ le 1 k) ++ le 3 d.x ++ le 2 d.y

/-- A window's weights (R79): 8 bytes. -/
def WindowWeights.bytes (w : WindowWeights) : List Byte :=
  le 2 w.gross ++ le 2 w.tare ++ le 2 w.net ++ flagByte w.overrange ++ le 1 w.quality.code

/-- A window result (R79): 21 bytes. -/
def WindowResult.bytes (w : WindowResult) : List Byte :=
  leTime w.time ++ leInt 3 w.mean ++ leInt 4 w.spread ++ flagByte w.quiet ++ optRecord 8 WindowWeights.bytes w.weights

/-- A lift's start and weigh expiry (R83). -/
def Lift.bytes (l : Lift) : List Byte := leTime l.start ++ leTime l.expiry

/-- A calibration table: presence, number of points, points (R75). -/
def pointsBytes (t : List CalPoint) : List Byte := le 1 t.length ++ (t.map CalPoint.bytes).flatten

/-- HOOK: the hook record and both calibration tables (R94, R180). -/
def Hook.bytes (h : Hook) : List Byte :=
  le 1 h.state.code ++ le 1 h.gripper.code ++ optRecord 15 Coil.bytes h.coil ++ optRecord 17 Source.bytes h.source
    ++ optRecord 8 Destination.bytes h.dest ++ le 1 h.quiet ++ optRecord 8 Lift.bytes h.lift ++ optBytes 2 h.tare
    ++ flagByte h.suspect ++ optRecord 21 WindowResult.bytes h.lastWindow ++ optRecord 15 Coil.bytes h.lost ++ le 2 h.late
    ++ le 2 h.malformed ++ le 2 h.unsettled ++ le 2 h.lostCount ++ optRecord 41 pointsBytes h.active
    ++ optRecord 41 pointsBytes h.staged

/-- A last report (R138): 15 bytes. -/
def Report.bytes (r : Report) : List Byte :=
  flagByte r.present ++ flagByte r.inPosition ++ optIdBytes r.truck ++ le 4 r.gross ++ flagByte r.stable ++ leTime r.time

/-- A placement's state: its code, then the crane or the coil record (R140, R158): 16 bytes. -/
def PlacementState.bytes (s : PlacementState) : List Byte :=
  padded 16 (match s with
    | .planned => le 1 0
    | .incoming c => le 1 1 ++ le 1 c.val
    | .placed q => le 1 2 ++ q.bytes)

/-- A placement (R140, R158): 23 bytes. -/
def Placement.bytes (q : Placement) : List Byte := le 2 q.offset ++ optIdBytes q.expected ++ q.state.bytes

/-- A load plan with its running values (R140, R158): 185 bytes. -/
def Plan.bytes (pl : Plan) : List Byte :=
  optIdBytes pl.truck ++ le 2 pl.tareFront ++ le 2 pl.tareRear ++ le 2 pl.wheelbase ++ le 2 pl.bed ++ le 4 pl.frontMax
    ++ le 4 pl.rearMax ++ le 4 pl.grossMax ++ le 1 pl.share ++ flagByte pl.strict ++ le 1 pl.placements.length
    ++ padded 138 (pl.placements.map Placement.bytes).flatten ++ leInt 8 pl.front ++ leInt 8 pl.rear ++ le 1 pl.placedCount
    ++ flagByte pl.scalePending

/-- A bay's record (R158). -/
def BayRecord.bytes (r : BayRecord) : List Byte :=
  le 1 r.state.code ++ le 1 r.causes.flags ++ flagByte r.pollStale ++ le 1 r.misses ++ le 2 r.totalMisses ++ le 2 r.late
    ++ le 2 r.malformed ++ optRecord 15 Report.bytes r.last ++ optRecord 185 Plan.bytes r.plan ++ optIdBytes r.noted
    ++ optBytes 4 (r.rearmAt.map BitVec.toNat)

/-- BAY: table entry, record and the levels and marks of its three lines (R158, R180). -/
def Part.bayBytes (p : Part) (b : Fin 6) : List Byte :=
  (p.bayEntry b).bytes ++ (p.bay b).bytes ++ p.lines.red[b].bytes ++ p.lines.green[b].bytes
    ++ le 1 p.lines.driver[b].accepted.code

/-- A port's counts in the order of R174. -/
def LinkCounts.bytes (c : LinkCounts) : List Byte :=
  le 2 c.good ++ le 2 c.checkErrors ++ le 2 c.framing ++ le 2 c.overruns ++ le 2 c.refused ++ le 2 c.unclaimed
    ++ le 2 c.conflicts ++ le 2 c.pollSkips ++ le 2 c.forwardDiscards ++ le 2 c.telemetryDiscards ++ le 2 c.sent

/-- LINK: both ports' counts, own station, and the fill of each FIFO and transmit queue (R174, R180). -/
def Link.bytes (l : Link) : List Byte :=
  l.sup.counts.bytes ++ l.crane.counts.bytes ++ [l.station] ++ le 1 l.sup.fifo.length ++ le 1 l.crane.fifo.length
    ++ le 1 l.reply.length ++ le 1 l.telemetry.length ++ le 1 l.urgent.length ++ le 1 l.normal.length

/-- PART: mode, millisecond counter, own station, the notice queue's fill and lost count (R180). -/
def Part.partBytes (p : Part) : List Byte :=
  le 1 p.mgmt.mode.code ++ leTime p.now ++ [p.link.station] ++ le 1 p.mgmt.notices.length ++ le 2 p.mgmt.lost

/-! ## The summary (R181) -/

/-- A fault mark of R72 is set. -/
def Lines.anyFault (l : Lines) : Bool :=
  (craneList.any fun c => l.stop[c].fault) || bayList.any fun b => l.red[b].fault || l.green[b].fault

/-- SUMMARY: stop latched per crane, paused per bay, any line fault and notices lost (R181). -/
def Part.summaryBytes (p : Part) : List Byte :=
  let stops := craneList.foldl (fun n c => n + bit c.val (p.latch c).causes.any) 0
  let paused := bayList.foldl (fun n b => n + bit b.val ((p.bay b).state == .paused)) 0
  le 1 stops ++ le 1 paused ++ le 1 (bit 0 p.lines.anyFault + bit 1 (decide (0 < p.mgmt.lost)))

/-! ## Clear-counts (R180) -/

/-- A crane record's four counts become 0 (R5). -/
def Part.clearCrane (p : Part) (c : Fin 4) : Part :=
  p.setRecord c { p.record c with late := 0, clamp := 0, staleCount := 0, malformed := 0 }

/-- A hook record's four counts become 0 (R94). -/
def Part.clearHook (p : Part) (c : Fin 4) : Part :=
  p.setHook c { p.hook c with late := 0, malformed := 0, unsettled := 0, lostCount := 0 }

/-- A bay's total miss, late and malformed counts become 0 (R158). -/
def Part.clearBay (p : Part) (b : Fin 6) : Part := p.setBay b { p.bay b with totalMisses := 0, late := 0, malformed := 0 }

/-- Both ports' counts become 0 (R174). -/
def Link.clearCounts (l : Link) : Link :=
  { l with sup := { l.sup with counts := LinkCounts.zero }, crane := { l.crane with counts := LinkCounts.zero } }

/-- The notice lost count becomes 0 (R180). -/
def Part.clearLost (p : Part) : Part := { p with mgmt := { p.mgmt with lost := 0 } }

/-! ## Serving a query (R180) -/

/-- The number of parts of an answer, 54 bytes to a part (R167, R180, log 8). -/
def partCount (b : List Byte) : Nat := max 1 (ceilDiv b.length 54)

/-- A QUERY answered from its bytes: the part asked for, with clear-counts done once the reply is formed (R180). -/
def answerQuery (f : Frame) (q : QueryRequest) (bytes : List Byte) (clear : Part → Part) (p : Part) : Part :=
  if partCount bytes ≤ q.part then p.refuse f .badValue []
  else
    let data := le 1 q.part ++ le 1 (partCount bytes) ++ (bytes.drop (54 * q.part)).take 54
    (if q.clear then clear p else p).ok f data

/-- A QUERY of a kind with no subject (R180). Its subject index is not looked at, a DESIGN CHOICE (log 45). -/
def queryWhole (bytes : Part → List Byte) (clear : Part → Part) (f : Frame) (p : Part) : Part :=
  match readQuery f.payload with
  | none => p.refuse f .malformed []
  | some q => answerQuery f q (bytes p) clear p

/-- A QUERY of a kind with a subject; a subject out of range is BAD_VALUE (R180). -/
def querySubject {α : Type} (subject : Nat → Option α) (bytes : Part → α → List Byte) (clear : Part → α → Part) (f : Frame)
    (p : Part) : Part :=
  match readQuery f.payload with
  | none => p.refuse f .malformed []
  | some q =>
    match subject q.subject with
    | none => p.refuse f .badValue []
    | some a => answerQuery f q (bytes p a) (fun p => clear p a) p

/-- A zone index in range. -/
def zoneSubject (n : Nat) : Option Nat := if n < 32 then some n else none

/-- A slot index in range. -/
def slotSubject (n : Nat) : Option Nat := if n < Config.slotCount then some n else none

/-- QUERY of a crane (R180). -/
def serveQueryCrane : Frame → Part → Part := querySubject craneOf Part.craneBytes Part.clearCrane

/-- QUERY of a zone (R180). -/
def serveQueryZone : Frame → Part → Part := querySubject zoneSubject Part.zoneBytes fun p _ => p

/-- QUERY of a slot (R180). -/
def serveQuerySlot : Frame → Part → Part := querySubject slotSubject Part.slotBytes fun p _ => p

/-- QUERY of the block sums (R98). -/
def serveQueryBlockSums : Frame → Part → Part := queryWhole Part.blockSumsBytes id

/-- QUERY of a hook (R94). -/
def serveQueryHook : Frame → Part → Part := querySubject craneOf (fun p c => (p.hook c).bytes) Part.clearHook

/-- QUERY of a bay (R158). -/
def serveQueryBay : Frame → Part → Part := querySubject bayOf Part.bayBytes Part.clearBay

/-- QUERY of the link (R174). -/
def serveQueryLink : Frame → Part → Part := queryWhole (fun p => p.link.bytes) fun p => p.onLink Link.clearCounts

/-- QUERY of the part, whose subject index is not looked at (R180, log 45), and a QUERY that names no kind, which is MALFORMED (R176,
R180, log 9). -/
def serveQueryPart (f : Frame) (p : Part) : Part :=
  match readQuery f.payload with
  | none => p.refuse f .malformed []
  | some q => if q.kind = 8 then answerQuery f q p.partBytes Part.clearLost p else p.refuse f .malformed []

/-- QUERY of the summary (R181). -/
def serveQuerySummary : Frame → Part → Part := queryWhole Part.summaryBytes id

end Sys2Proof.Machine
end

