-- ==== Sys2Proof/Machine/Receive.lean ====
section
/-! DEFINITION. The receivers and the classification of frames (08, R161 to R166), the end of a transmission (R169) and the
REPLY arbiter (R173). -/

namespace Sys2Proof.Machine

/-! ## Receiving (R161 to R163) -/

/-- The frame of a complete byte sequence since the start mark (R161). -/
def frameOf (bytes : List Byte) : Frame :=
  let n := field bytes 4 1
  { dest := BitVec.ofNat 8 (field bytes 0 1), src := BitVec.ofNat 8 (field bytes 1 1),
    kind := BitVec.ofNat 8 (field bytes 2 1), seq := BitVec.ofNat 8 (field bytes 3 1),
    payload := (bytes.drop 5).take n, check := BitVec.ofNat 16 (field bytes (5 + n) 2) }

/-- A good frame is offered to the receive FIFO (R163). -/
def Port.offer (r : Port) (f : Frame) : Port :=
  if r.fifo.length < Config.fifoDepth then { r with fifo := r.fifo ++ [f] }
  else { r with counts := { r.counts with overruns := bump r.counts.overruns } }

/-- A complete frame is checked (R162). -/
def Port.complete (r : Port) (f : Frame) : Port :=
  if crc f.covered = f.check then
    { r with counts := { r.counts with good := bump r.counts.good } }.offer f
  else { r with counts := { r.counts with checkErrors := bump r.counts.checkErrors } }

/-- A framing error: counted, and the receiver hunts again (R161). -/
def Port.framingError (r : Port) : Port :=
  { r with rx := .hunting, counts := { r.counts with framing := bump r.counts.framing } }

/-- One byte from the line, without a gap before it (R161). -/
def Port.feed (r : Port) (b : Byte) : Port :=
  match r.rx with
  | .hunting => if b = 0xA7 then { r with rx := .inFrame [] } else r
  | .inFrame bytes =>
    let bytes := bytes ++ [b]
    if bytes.length = 5 ∧ Config.maxPayload < b.toNat then r.framingError
    else if 5 < bytes.length ∧ bytes.length = 7 + field bytes 4 1 then { r with rx := .hunting }.complete (frameOf bytes)
    else { r with rx := .inFrame bytes }

/-- Bytes from the line, one after another (R161). -/
def Port.feedAll (r : Port) (line : List Byte) : Port := line.foldl Port.feed r

/-- A gap above 50 µs, and the byte after it (R161). -/
def Port.gap (r : Port) (next : Byte) : Port :=
  match r.rx with
  | .hunting => r.feed next
  | .inFrame _ => r.framingError.feed next

/-- The receiver expects the length byte next (R161). -/
def Port.expectsLength (r : Port) : Bool :=
  match r.rx with
  | .hunting => false
  | .inFrame bytes => bytes.length == 4

/-- The part with a port changed. -/
def Part.onPort (p : Part) (id : PortId) (f : Port → Port) : Part :=
  match id with
  | .supervisor => p.onLink fun l => { l with sup := f l.sup }
  | .crane => p.onLink fun l => { l with crane := f l.crane }

/-! ## Classification (R164 to R166) -/

/-- Where a frame at the head of the supervisor-port FIFO goes (R165). -/
inductive SupClass where
  | responder (k : Kind)
  | order (k : Kind) (crane : Fin 4)
  | broadcastHalt
  | forward
  | refused
  | unclaimed
deriving DecidableEq, Repr

/-- Where a frame at the head of the crane-port FIFO goes (R166). -/
inductive CraneClass where
  | position (crane : Fin 4)
  | load (crane : Fin 4)
  | done (crane : Fin 4) (d : RawDone)
  | bayReport (bay : Fin 6)
  | telemetry (unclaimed : Bool)
  | refused
  | conflict
deriving DecidableEq, Repr

/-- The kind of a frame is a management kind (R164). -/
def Frame.management (f : Frame) : Bool := (kindOf f.kind).any Kind.isManagement

/-- The first line of R165 that fits. Only a frame of this FIFO changes the crane table, and the next frame reaches the head when that
one's step ends, so the table in force is that of the moment R164 names (log 37). -/
def Part.classifySup (p : Part) (f : Frame) : SupClass :=
  match kindOf f.kind with
  | some k =>
    if k.isManagement then if f.dest = p.link.station ∧ f.src = 0 then .responder k else .refused
    else if f.dest = p.link.station then .refused
    else
      match p.craneAt f.dest with
      | some c => if k.isOrder then .order k c else .unclaimed
      | none =>
        if f.dest = 31 then if k = .halt then .broadcastHalt else .unclaimed
        else if f.dest = 0 then .unclaimed
        else .forward
  | none =>
    if f.dest = p.link.station then .refused
    else if (p.craneAt f.dest).isSome then .unclaimed
    else if f.dest = 31 then .forward
    else if f.dest = 0 then .unclaimed
    else .forward

/-- What the source of the frame at the head of the crane-port FIFO was when it reached the head (R164). -/
def Part.senderOf (p : Part) (f : Frame) : Sender := p.link.sender.getD (p.senderNow f.src)

/-- The first line of R166 that fits; configured was judged when the frame reached the head (R164). -/
def Part.classifyCrane (p : Part) (f : Frame) : CraneClass :=
  if f.management then .refused
  else if f.src = 0 ∨ f.src = 31 ∨ f.src = p.link.station then .conflict
  else
    match p.senderOf f with
    | .crane c =>
      match kindOf f.kind with
      | some .position => .position c
      | some .load => .load c
      | some .done =>
        match readDone f.payload with
        | some d => .done c d
        | none => .telemetry true
      | _ => .telemetry true
    | .bay b => if kindOf f.kind = some .bayReport then .bayReport b else .telemetry true
    | .other => .telemetry false

/-- The frame at the head of the supervisor-port FIFO (R163). -/
def Part.supHead (p : Part) : Option Frame := p.link.sup.fifo.head?

/-- The frame at the head of the crane-port FIFO (R163). -/
def Part.craneHead (p : Part) : Option Frame := p.link.crane.fifo.head?

/-- The head leaves the supervisor-port FIFO (R163). -/
def Part.dropSup (p : Part) : Part := p.onPort .supervisor fun r => { r with fifo := r.fifo.drop 1 }

/-- A frame has reached the head of the crane-port FIFO: what its source is is judged now (R164). -/
def Part.judgeHead (p : Part) : Part :=
  p.onLink fun l => { l with sender := p.craneHead.map fun f => p.senderNow f.src }

/-- The head leaves the crane-port FIFO, and the next frame reaches the head (R163, R164). -/
def Part.dropCrane (p : Part) : Part := (p.onPort .crane fun r => { r with fifo := r.fifo.drop 1 }).judgeHead

/-- Bytes arrive on a port's line without a gap (R161); a frame that joins an empty crane-port FIFO is at its head (R163, R164). -/
def Part.receive (p : Part) (id : PortId) (line : List Byte) : Part :=
  let q := p.onPort id fun r => r.feedAll line
  if p.craneHead.isNone && q.craneHead.isSome then q.judgeHead else q

/-- A frame is discarded under a management line (R165, R166, R174). -/
def Port.countRefused (r : Port) : Port := { r with counts := { r.counts with refused := bump r.counts.refused } }

/-- A frame is counted unclaimed (R165, R166, R174). -/
def Port.countUnclaimed (r : Port) : Port := { r with counts := { r.counts with unclaimed := bump r.counts.unclaimed } }

/-- A crane-port frame is discarded for its source (R166, R174). -/
def Port.countConflict (r : Port) : Port := { r with counts := { r.counts with conflicts := bump r.counts.conflicts } }

/-- A supervisor-port frame that is for no unit: forwarded unchanged once NORMAL has room, or discarded and counted (R165). -/
def Part.forwardSup (p : Part) : Part :=
  match p.supHead with
  | none => p
  | some f =>
    match p.classifySup f with
    | .forward => if p.link.normalRoom then p.dropSup.onLink (Link.forwardNormal f) else p
    | .refused => p.dropSup.onPort .supervisor Port.countRefused
    | .unclaimed => p.dropSup.onPort .supervisor Port.countUnclaimed
    | .responder _ => p
    | .order _ _ => p
    | .broadcastHalt => p

/-- A crane-port frame that is for no unit: to TELEMETRY unchanged, or discarded and counted (R166). -/
def Part.forwardCrane (p : Part) : Part :=
  match p.craneHead with
  | none => p
  | some f =>
    match p.classifyCrane f with
    | .telemetry unclaimed =>
      let p := if unclaimed then p.dropCrane.onPort .crane Port.countUnclaimed else p.dropCrane
      p.onLink (Link.pushTelemetry f)
    | .refused => p.dropCrane.onPort .crane Port.countRefused
    | .conflict => p.dropCrane.onPort .crane Port.countConflict
    | .position _ => p
    | .load _ => p
    | .done _ _ => p
    | .bayReport _ => p

/-! ## The end of a transmission (R169) -/

/-- A transmitter completes its frame and starts the next (R169, R174). -/
def Part.frameSent (p : Part) (id : PortId) : Part :=
  let sent := fun r : Port => { r with tx := none, counts := { r.counts with sent := bump r.counts.sent } }
  match id with
  | .supervisor =>
    if p.link.sup.tx.isSome then (p.onPort .supervisor sent).onLink Link.startSupervisor else p
  | .crane => if p.link.crane.tx.isSome then (p.onPort .crane sent).onLink Link.startCrane else p

/-! ## The REPLY arbiter (R173) -/

/-- A producer has a frame waiting (R173). -/
def Part.waits (p : Part) (d : Producer) : Bool :=
  match d with
  | .gate => !p.gate.verdicts.isEmpty
  | .responder => p.mgmt.reply.isSome
  | .engine => !p.engine.answers.isEmpty
  | .notices => !p.mgmt.notices.isEmpty

/-- The producer moves to the end of the order (R173). -/
def rotate (turn : List Producer) (d : Producer) : List Producer := (turn.filter fun x => x != d) ++ [d]

/-- A producer puts its oldest waiting frame into REPLY (R56, R126, R176, R184). -/
def Part.produce (p : Part) (d : Producer) : Part :=
  match d with
  | .gate =>
    match p.gate.verdicts with
    | v :: rest => { p with gate := { p.gate with verdicts := rest } }.onLink (Link.pushReply .verdict v.payload)
    | [] => p
  | .responder =>
    match p.mgmt.reply with
    | some r => { p with mgmt := { p.mgmt with reply := none } }.onLink (Link.pushReply .reply r.payload)
    | none => p
  | .engine =>
    match p.engine.answers with
    | a :: rest => { p with engine := { p.engine with answers := rest } }.onLink (Link.pushReply .reply a.payload)
    | [] => p
  | .notices =>
    match p.mgmt.notices with
    | n :: rest => { p with mgmt := { p.mgmt with notices := rest } }.onLink (Link.pushReply .notice n.payload)
    | [] => p

/-- The next producer in the arbiter's order that has a frame waiting (R173). -/
def Part.nextProducer (p : Part) : Option Producer := p.link.turn.find? p.waits

/-- A free REPLY entry goes to the next waiting producer (R173). -/
def Part.grantReply (p : Part) : Part :=
  if !p.link.replyRoom then p
  else
    match p.nextProducer with
    | none => p
    | some d => (p.produce d).onLink fun l => { l with turn := rotate l.turn d }

end Sys2Proof.Machine
end

