-- ==== Sys2Proof/Machine/ZoneFrames.lean ====
section
/-! DEFINITION. The zone frames HOLD, UNHOLD, BLOCK and UNBLOCK, the hold expiry (02, R40 to R46), and STOP_RELEASE (03, R68). -/

namespace Sys2Proof.Machine

/-- The zones of a mask in ascending order. -/
def maskZones (m : ZoneMask) : List Nat := zoneList.filter fun k => m.getLsbD k

/-- The first zone of a mask that is not defined (R40, R41, R45, R46). -/
def Part.undefinedZone (p : Part) (m : ZoneMask) : Option Nat := (maskZones m).find? fun k => !(p.zone k).defined

/-- A frame with a zone mask: MALFORMED, BAD_VALUE with the data its rule gives for the first zone that is not defined, or its effect
(R41, R45, R46). -/
def serveMask (data : Nat → List Byte) (effect : ZoneMask → Part → Part) (f : Frame) (p : Part) : Part :=
  match readMask f.payload with
  | none => p.refuse f .malformed []
  | some m =>
    match p.undefinedZone m with
    | some k => p.refuse f .badValue (data k)
    | none => effect m p

/-! ## HOLD and UNHOLD (R40 to R42) -/

/-- The management part of a HOLD: the expiry now plus the duration, or INDEFINITE for 0 (R40). -/
def Part.holdPart (p : Part) (seconds : Nat) : HoldPart :=
  if seconds = 0 then .indefinite else .till (after p.now (seconds * 1000))

/-- A HOLD frame (R40). -/
def serveHold (f : Frame) (p : Part) : Part :=
  match readHold f.payload with
  | none => p.refuse f .malformed []
  | some (m, seconds) =>
    match p.undefinedZone m with
    | some k => p.refuseAt f .badValue k
    | none =>
      ((maskZones m).foldl (fun p k => p.setZone k { p.zone k with hold := some (p.holdPart seconds) }) p).ok f []

/-- A zone's management part is removed; a hold that thereby ends hands the zone on (R41, R42). -/
def Part.endHold (p : Part) (k : Nat) : Part :=
  if (p.zone k).hold.isSome then (p.setZone k { p.zone k with hold := none }).handOn k else p

/-- An UNHOLD frame; its refusal names no zone (R41). -/
def serveUnhold (f : Frame) (p : Part) : Part :=
  serveMask (fun _ => []) (fun m p => ((maskZones m).foldl (fun p k => p.endHold k) p).ok f []) f p

/-- A timed management part has passed (R42). -/
def Part.holdDue (p : Part) (k : Nat) : Bool :=
  match (p.zone k).hold with
  | some (.till t) => passed p.now t
  | _ => false

/-- The expiry of a timed management part: the part is removed, HOLD_EXPIRED queued, and a hold that thereby ends hands the
zone on (R42). -/
def Part.expireHold (p : Part) (k : Nat) : Part :=
  match (p.zone k).hold with
  | some (.till t) =>
    let p := p.setZone k { p.zone k with hold := none }
    (p.notify .holdExpired k t.toNat (bit 0 (p.zone k).bayHold.any) 0).handOn k
  | _ => p

/-! ## BLOCK and UNBLOCK (R45, R46) -/

/-- The claims that wait on a zone just blocked are removed and reported REFUSED (R45), in the order in which they joined the list, a
DESIGN CHOICE (log 42). -/
def Part.refuseWaiters (p : Part) (k : Nat) : Part :=
  (p.zone k).waiters.foldl (fun p w =>
    if (p.claim w.crane).any fun cl => cl.zone == k then
      (p.withdrawClaim w.crane).reportRefused w.crane .zoneBlocked
    else p) p

/-- Every zone of a mask becomes blocked, and then the waiting claims are refused, zone by zone upward, a DESIGN CHOICE (R45, log 29,
log 42). -/
def Part.blockZones (p : Part) (m : ZoneMask) : Part :=
  let p := (maskZones m).foldl (fun p k => p.setZone k { p.zone k with blocked := true }) p
  (maskZones m).foldl (fun p k => p.refuseWaiters k) p

/-- A BLOCK frame; its refusals name the zone (R45). -/
def serveBlock (f : Frame) (p : Part) : Part :=
  serveMask (le 2) (fun m p =>
    match (maskZones m).find? fun k => (p.zone k).grant.isSome with
    | some k => p.refuseAt f .inUse k
    | none => (p.blockZones m).ok f []) f p

/-- An UNBLOCK frame; its refusal names no zone (R46). -/
def serveUnblock (f : Frame) (p : Part) : Part :=
  serveMask (fun _ => []) (fun m p =>
    ((maskZones m).foldl (fun p k => p.setZone k { p.zone k with blocked := false }) p).ok f []) f p

/-! ## STOP_RELEASE (R68) -/

/-- Every bay of a bay set is safe; a bay that is not configured counts as safe (R68, R136). -/
def Part.baysSafe (p : Part) (s : BaySet) : Bool :=
  bayList.all fun b => !s[b] || !(p.bayEntry b).configured || p.driverSafe b

/-- Whether a cause of a crane's latch is removed by STOP_RELEASE; INTRUSION is judged after its fresh envelope (R68). -/
def Part.releasable (p : Part) (c : Fin 4) (cause : StopCause) : Bool :=
  match cause with
  | .stale => (p.record c).tracking == .tracked
  | .ordering => p.inOrder c
  | .intrusion => p.withinGrant c
  | .cabArea => !(p.hook c).loaded || !p.inCabArea (p.craneX c) (p.craneY c)
  | .bayDriver => p.baysSafe (p.latch c).bays
  | .truckLeft => true
  | .startup => false

/-- The causes in the order of R68. -/
def causeList : List StopCause := [.stale, .ordering, .intrusion, .cabArea, .bayDriver, .truckLeft, .startup]

/-- One cause of a STOP_RELEASE (R68). -/
def Part.releaseCause (p : Part) (c : Fin 4) (cause : StopCause) : Part :=
  if (p.latch c).causes.has cause then
    let p := if cause = .intrusion then p.requestEnvelope c else p
    if p.releasable c cause then p.dropCause c cause else p
  else p

/-- Every cause of a crane's latch, in the order of R68; an empty set clears the latch (R68). -/
def Part.releaseStop (p : Part) (c : Fin 4) : Part :=
  let p := causeList.foldl (fun p cause => p.releaseCause c cause) p
  if (p.latch c).causes.any then p else p.latchCleared c 1

/-- A STOP_RELEASE frame (R68). -/
def serveStopRelease (f : Frame) (p : Part) : Part :=
  match readOne f.payload with
  | none => p.refuse f .malformed []
  | some n =>
    match (craneOf n).filter fun c => (p.entry c).configured with
    | none => p.refuse f .badValue []
    | some c =>
      let p := p.releaseStop c
      p.ok f (le 1 (p.latch c).causes.flags)

end Sys2Proof.Machine
end

