-- ==== Sys2Proof/Machine/Service.lean ====
section
/-! DEFINITION. How frames and expiries reach the units: the order of service at the slot map (R118), the taking of order and
management frames from the FIFO (R163, R176), telegrams from the crane port (R166), and the expiries (R182). -/

namespace Sys2Proof.Machine

/-! ## Service at the slot map (R118, log 11) -/

/-- A management frame that waited at the slot map is served by its owner (R118, R127). -/
def serveSlotFrame (f : Frame) (p : Part) : Part :=
  match kindOf f.kind with
  | some .reserve => serveReserve f p
  | some .unreserve => serveUnreserve f p
  | some .slotSet => serveSlotSet f p
  | some .tableWrite =>
    match field f.payload 0 1 with
    | 4 => serveBlockTable f p
    | 5 => serveGeometryTable f p
    | 6 => (serveGroupMap f p).renewSearch
    | _ => (serveParams f p).renewSearch
  | some .tableRead => serveTableRead f p
  | some .query => if field f.payload 0 1 = 3 then serveQuerySlot f p else serveQueryBlockSums f p
  | _ => p

/-- A request of the slot map is served whole (R118); an order has passed checks 1 to 5 of R55 before it. -/
def SlotTask.serve (t : SlotTask) (p : Part) : Part :=
  match t with
  | .search => p.completeSearch
  | .management f => serveSlotFrame f { p with mgmt := { p.mgmt with held := none } }
  | .order c f =>
    match (kindOf f.kind).bind Kind.order with
    | some k => (readOrder k f.payload).elim p fun r => p.resolveOrder c r
    | none => p
  | .expiry i => serveReservationExpiry i p

/-- The part with the waiting requests replaced. -/
def Part.setRequests (p : Part) (ts : List SlotTask) : Part := p.onSlots fun m => { m with requests := ts }

/-- The oldest waiting request is served (R118). -/
def Part.serveNext (p : Part) : Part :=
  match p.slots.requests with
  | [] => p
  | t :: rest => t.serve (p.setRequests rest)

/-- Requests are served in the order in which they arrived (R118). -/
def Part.serveMany : Nat → Part → Part
  | 0, p => p
  | n + 1, p => Part.serveMany n p.serveNext

/-- Every waiting request is served. -/
def Part.settle (p : Part) : Part := Part.serveMany p.slots.requests.length p

/-- A request joins those that wait (R118). -/
def Part.queueTask (p : Part) (t : SlotTask) : Part := p.setRequests (p.slots.requests ++ [t])

/-- The location is a slot. -/
def Location.isSlot (l : Location) : Bool :=
  match l with
  | .slot _ => true
  | _ => false

/-- A destination is a slot. -/
def DestPlace.isSlot (d : DestPlace) : Bool :=
  match d with
  | .slot _ => true
  | .bayPos _ _ => false

/-- The order gate waits for the slot map's answer to an order (R118). -/
def Part.gateWaits (p : Part) : Bool :=
  p.slots.requests.any fun t => match t with | .order _ _ => true | _ => false

/-- The gate waits for the slot map, or some hook or order stands toward it, so an event may ask it (R118, log 11). -/
def Part.touchesSlots (p : Part) : Bool :=
  p.gateWaits || craneList.any fun c => (p.hook c).source.isSome || ((p.hook c).dest.any fun d => d.place.isSlot)
    || (p.activeOrder c).any fun o => o.loc.any Location.isSlot

/-- An event that may ask the slot map waits for the requests before it, which are served first (R118, log 11). -/
def Part.await (p : Part) : Part := if p.touchesSlots then p.settle else p

/-- An event that falls due is taken once the requests before it at the slot map are served, if it is then still due: a write that
waited there may have moved it (R4, R118, log 11). -/
def Part.whenDue (p : Part) (due : Part → Bool) (act : Part → Part) : Part :=
  if !due p then p else if due p.await then act p.await else p.await

/-! ## Order frames (R55, R56, R163, R165) -/

/-- The gate takes an order frame: its verdict list is empty and no order of it waits at the slot map (R56, R118, R163). -/
def Part.gateTakes (p : Part) : Bool := p.gate.verdicts.isEmpty && !p.gateWaits

/-- An order frame names a slot, so its resolution asks the slot map (R53, R118). -/
def asksSlot (k : OrderKind) (payload : List Byte) : Bool :=
  (readOrder k payload).any fun r => r.loc.any Location.isSlot

/-- An order that passes checks 1 to 5 of R55 and names a slot waits for its resolution behind the requests at the slot map (R55,
R118). -/
def Part.orderWaits (p : Part) (c : Fin 4) (k : OrderKind) (payload : List Byte) : Bool :=
  asksSlot k payload && !p.slots.requests.isEmpty && (p.firstChecks c).isNone

/-- A GOTO, PICK, PLACE or PARK at the head of the supervisor-port FIFO, when the gate takes it (R55, R163). -/
def Part.orderFrame (k : Kind) (kind : OrderKind) (p : Part) : Part :=
  match p.supHead with
  | none => p
  | some f =>
    match p.classifySup f with
    | .order k' c =>
      if k' = k ∧ p.gateTakes then
        if p.orderWaits c kind f.payload then p.dropSup.queueTask (.order c f)
        else p.dropSup.await.takeOrder c kind f.payload
      else p
    | _ => p

/-- A HALT for a crane at the head of the FIFO (R65). -/
def Part.haltFrame (p : Part) : Part :=
  match p.supHead with
  | none => p
  | some f =>
    match p.classifySup f with
    | .order .halt c => if p.gateTakes then p.dropSup.await.takeHalt c f.payload else p
    | _ => p

/-- A broadcast HALT at the head of the FIFO (R65, R171). -/
def Part.broadcastHaltFrame (p : Part) : Part :=
  match p.supHead with
  | none => p
  | some f =>
    match p.classifySup f with
    | .broadcastHalt => if p.gateTakes then p.dropSup.await.takeBroadcastHalt f else p
    | _ => p

/-! ## Management frames (R176) -/

/-- The responder takes a frame: it holds no earlier one and no unsent reply (R176). Only a management frame at the head waits for it;
a frame for another destination does not, DEDUCED from R163 (log 44). -/
def Part.takesManagement (p : Part) : Bool := p.mgmt.held.isNone && p.mgmt.reply.isNone

/-- A management frame of a kind and form at the head of the FIFO, when the responder takes it (R163, R165, R176). -/
def Part.managementHead (p : Part) (k : Kind) (want : List Byte → Bool) : Option Frame :=
  match p.supHead with
  | none => none
  | some f => if p.classifySup f = .responder k ∧ p.takesManagement ∧ want f.payload then some f else none

/-- The payload fits its kind, and its fields name values of their form (R176 step 1, log 7). -/
def formFits (k : Kind) (payload : List Byte) : Bool :=
  match k with
  | .tableWrite => readTableWrite payload != .malformed
  | .tableRead => decide (payload.length = 4)
  | .query => (readQuery payload).any fun q => decide (1 ≤ q.kind) && decide (q.kind ≤ 9)
  | .allocate => (readAllocate payload).isSome
  | .reserve => (readReserve payload).isSome
  | .unreserve => (readUnreserve payload).isSome
  | .slotSet => (readSlotSet payload).isSome
  | .planLoad => (readPlan payload).isSome
  | .hold => (readHold payload).isSome
  | .unhold => (readMask payload).isSome
  | .block => (readMask payload).isSome
  | .unblock => (readMask payload).isSome
  | .planClear => (readOne payload).isSome
  | .bayAck => (readOne payload).isSome
  | .stopRelease => (readOne payload).isSome
  | .mode => (readOne payload).any fun m => decide (m ≤ 2)
  | .restart => payload.isEmpty
  | _ => false

/-- A management frame is taken: one that does not fit its form is answered MALFORMED at once, any other goes to its owner
(R176). -/
def Part.manage (k : Kind) (want : List Byte → Bool) (serve : Frame → Part → Part) (p : Part) : Part :=
  match p.managementHead k want with
  | none => p
  | some f => if formFits k f.payload then serve f p.dropSup else p.dropSup.refuse f .malformed []

/-- The responder holds a frame that its owner does not take yet (R176). -/
def Part.hold (p : Part) (f : Frame) : Part := { p with mgmt := { p.mgmt with held := some f } }

/-- A management frame of the slot map is taken, and served once no request waits before it (R118, R176). -/
def Part.manageSlots (k : Kind) (want : List Byte → Bool) (serve : Frame → Part → Part) (p : Part) : Part :=
  p.manage k want fun f p =>
    if p.slots.requests.isEmpty then serve f p else (p.hold f).queueTask (.management f)

/-- Any form. -/
def anyForm (_ : List Byte) : Bool := true

/-- A TABLE_WRITE or TABLE_READ payload names a table; a payload too short for its head names none (log 9). -/
def namesTable (n : Nat) (payload : List Byte) : Bool := decide (4 ≤ payload.length) && field payload 0 1 == n

/-- A TABLE_WRITE payload of the parameter table, or of no table of R178 (log 9). -/
def namesParams (payload : List Byte) : Bool :=
  decide (payload.length < 4) || !(decide (1 ≤ field payload 0 1) && decide (field payload 0 1 ≤ 8))

/-- A TABLE_WRITE payload that writes the overflow block, the ground penalty or the mix penalty, parameters 11 to 13 (R127,
R178). -/
def writesPenalties (payload : List Byte) : Bool :=
  namesTable 9 payload && decide (field payload 1 2 ≤ 13) && decide (11 < field payload 1 2 + field payload 3 1)

/-- A TABLE_READ payload of a table of the slot map (R118). -/
def readsSlots (payload : List Byte) : Bool := namesTable 4 payload || namesTable 5 payload

/-- A QUERY payload names a kind, numbered 1 CRANE to 9 SUMMARY in the order of R180 (log 8). -/
def namesQuery (n : Nat) (payload : List Byte) : Bool := decide (payload.length = 5) && field payload 0 1 == n

/-- A QUERY payload of PART, or of no kind (log 9). -/
def namesPart (payload : List Byte) : Bool :=
  namesQuery 8 payload || decide (payload.length ≠ 5) || field payload 0 1 == 0 || decide (9 < field payload 0 1)

/-- A MODE payload that asks for MAINTENANCE (R187). -/
def asksMaintenance (payload : List Byte) : Bool := readOne payload == some 2

/-- Any other MODE payload (log 9). -/
def asksOther (payload : List Byte) : Bool := !asksMaintenance payload

/-! ## ALLOCATE (R121, R126, R176) -/

/-- A held ALLOCATE (R176). -/
def Part.heldAllocate (p : Part) : Option Frame := p.mgmt.held.filter fun f => f.kind == Kind.allocate.code

/-- An ALLOCATE: a held one, or the one at the head of the FIFO, is served when the engine takes it; while the answer list holds
an answer the responder holds the frame (R126, R176). A held frame has left the FIFO, so of the frames behind it a management frame waits, and
all behind that one; an order, a HALT or a forwarded frame directly behind it is served, DEDUCED from R163 (log 44). -/
def Part.allocateFrame (p : Part) : Part :=
  let busy := !p.engine.answers.isEmpty
  match p.heldAllocate with
  | some f => if busy then p else serveAllocate f { p with mgmt := { p.mgmt with held := none } }
  | none => p.manage .allocate anyForm fun f p => if busy then p.hold f else serveAllocate f p

/-! ## Telegrams from the crane port (R166) -/

/-- A POSITION at the head of the crane-port FIFO: the tracker's copy, and TELEMETRY (R6, R166). The unit acts on its copy before the
frame joins TELEMETRY, a DESIGN CHOICE (log 36). -/
def Part.positionFrame (p : Part) : Part :=
  match p.craneHead with
  | none => p
  | some f =>
    match p.classifyCrane f with
    | .position c => (p.dropCrane.await.positionTelegram c f.seq f.payload).onLink (Link.pushTelemetry f)
    | _ => p

/-- A LOAD at the head of the crane-port FIFO: the weigher's copy, and then TELEMETRY (R78, R166, log 36). -/
def Part.loadFrame (p : Part) : Part :=
  match p.craneHead with
  | none => p
  | some f =>
    match p.classifyCrane f with
    | .load c => (p.dropCrane.await.loadTelegram c f.seq f.payload).onLink (Link.pushTelemetry f)
    | _ => p

/-- A DONE at the head of the crane-port FIFO: the gate's copy, and then TELEMETRY (R63, R166, log 36). -/
def Part.doneFrame (p : Part) : Part :=
  match p.craneHead with
  | none => p
  | some f =>
    match p.classifyCrane f with
    | .done c d => (p.dropCrane.await.takeDone c d).onLink (Link.pushTelemetry f)
    | _ => p

/-- A BAY_REPORT at the head of the crane-port FIFO, consumed by the bay controller (R138, R166). -/
def Part.bayReportFrame (p : Part) : Part :=
  match p.craneHead with
  | none => p
  | some f =>
    match p.classifyCrane f with
    | .bayReport b => p.dropCrane.await.bayReport b f.payload
    | _ => p

/-! ## Pending commands (R61) -/

/-- A pending command may enter NORMAL: it has an entry free (R61). -/
def Part.pendingDue (p : Part) : Bool := p.link.normalRoom && !p.gate.pendingTurn.isEmpty

/-- The pending command that has waited longest leaves the order's record and enters NORMAL (R61). -/
def Part.takePending (p : Part) : Part :=
  match p.gate.pendingTurn with
  | [] => p
  | c :: rest =>
    let p := { p with gate := { p.gate with pendingTurn := rest } }
    match (p.activeOrder c).bind Order.pending with
    | some cmd => p.forwardCommand c cmd
    | none => p

/-- A pending command is queued when NORMAL has an entry free, after the requests that wait at the slot map (R61, R118). -/
def Part.queuePending (p : Part) : Part := p.whenDue Part.pendingDue Part.takePending

/-! ## Expiries (R182) -/

/-- A slot's reservation expiry has passed and is not yet acted on (R114). -/
def Part.reservationDue (p : Part) (i : Nat) : Bool :=
  !p.slots.requests.contains (.expiry i) && match p.slots.slot i with
    | some ⟨_, .reserved r⟩ => passed p.now r.expiry
    | some ⟨_, .incoming r _ _⟩ => passed p.now r.expiry && !r.lapsed
    | _ => false

/-- A reservation expiry reaches the slot map (R114, R118). -/
def Part.expireReservation (p : Part) (i : Nat) : Part :=
  if !p.reservationDue i then p
  else if p.slots.requests.isEmpty then serveReservationExpiry i p else p.queueTask (.expiry i)

/-- A configured crane's stale expiry (R12). -/
def Part.expireStale (p : Part) (c : Fin 4) : Part := p.whenDue (fun p => p.staleDue c) fun p => p.becomeStale c

/-- A zone's hold expiry (R42). -/
def Part.expireHoldOf (p : Part) (k : Nat) : Part := p.whenDue (fun p => p.holdDue k) fun p => p.expireHold k

/-- A lift's weigh expiry (R87). -/
def Part.expireWeigh (p : Part) (c : Fin 4) : Part := p.whenDue (fun p => p.weighDue c) fun p => p.weighUnsettled c

/-- A bay's re-arm wait has passed (R148). -/
def Part.rearmDue (p : Part) (b : Fin 6) : Bool := (p.bay b).rearmAt.any fun t => passed p.now t

/-- A bay's re-arm expiry (R148). -/
def Part.expireRearm (p : Part) (b : Fin 6) : Part := p.whenDue (fun p => p.rearmDue b) fun p => p.rearm b

/-- A bay's flash timer has passed (R157). -/
def Part.flashDue (p : Part) (b : Fin 6) : Bool := (p.bay b).flashAt.any fun t => passed p.now t

/-- A bay's flash timer expiry (R157). -/
def Part.expireFlash (p : Part) (b : Fin 6) : Part := if p.flashDue b then p.flash b else p

/-- The dwell of the scan has passed (R137). -/
def Part.dwellDue (p : Part) : Bool := p.bays.scan.any fun sc => passed p.now sc.dwellEnd

/-- The end of a dwell (R137, R139). -/
def Part.expireDwell (p : Part) : Part :=
  p.whenDue Part.dwellDue fun p => p.bays.scan.elim p fun sc => p.endDwell sc

/-! ## The filter's events and the slot map's -/

/-- The samples of FILTER_SAMPLE (R71). -/
def Part.sampleInputs (p : Part) (s : Samples) : Part :=
  p.whenDue (fun p => passed p.now p.lines.nextSample) fun p => p.takeSamples s

/-- A level that is due is accepted (R71). -/
def Part.inputAccepted (p : Part) (n : Nat) : Part := p.whenDue (fun p => p.levelDue n) fun p => p.acceptLevel n

/-- A waiting request that is no search is served (R118). -/
def Part.serveRequest (p : Part) : Part :=
  match p.slots.requests with
  | [] => p
  | .search :: _ => p
  | _ :: _ => p.serveNext

/-- A search that stands first at the slot map completes (R118, R131). -/
def Part.finishSearch (p : Part) : Part :=
  match p.slots.requests with
  | .search :: _ => p.serveNext
  | _ => p

end Sys2Proof.Machine
end

