-- ==== Sys2Proof/Machine/Steps.lean ====
section
/-! DEFINITION. The meaning of every command of spec/opcode_table.json, in the table's order: what it does to the part. While the
reset line is active only the start commands act (R192). A command whose event is not due changes nothing (log 6). -/

namespace Sys2Proof.Machine

/-- A command's effect on the part; while the part is held in reset there is none (R192). -/
def State.act (s : State) (f : Part → Part) : Host.Outcome State Fault Refusal :=
  .next (if s.part.inReset then s else { s with part := f s.part })

/-- A table read, which waits at the slot map when it reads a table of it (R118, R179). -/
def Part.tableReadFrame (p : Part) : Part :=
  if (p.managementHead .tableRead readsSlots).isSome then p.manageSlots .tableRead readsSlots serveTableRead
  else p.manage .tableRead anyForm serveTableRead

/-- A parameter write, which waits behind a search at the slot map when it writes a value that a search starts with (R127, R178). -/
def Part.parameterFrame (p : Part) : Part :=
  if (p.managementHead .tableWrite writesPenalties).isSome then p.manageSlots .tableWrite writesPenalties serveParams
  else p.manage .tableWrite namesParams serveParams

/-- POWER_ON: the end of power-on (R192). With the reset line still active it starts the part and takes the line as released, a DESIGN
CHOICE (log 3). -/
def execPowerOn (straps : BitVec 2) (s : State) : Host.Outcome State Fault Refusal :=
  .next { s with part := startPart straps 3 }

/-- RESET_LINE_ASSERTED: the reset line becomes active (R192). -/
def execResetLineAsserted (s : State) : Host.Outcome State Fault Refusal :=
  .next { s with part := s.part.holdInReset }

/-- RESET_LINE_RELEASED: the reset line is released (R192). -/
def execResetLineReleased (straps : BitVec 2) (s : State) : Host.Outcome State Fault Refusal :=
  .next { s with part := if s.part.inReset then startPart straps 4 else s.part }

/-- FRAME_RECEIVED: bytes arrive on a port's line without a gap; each frame they complete is checked (R161, R162, R163). -/
def execFrameReceived (port : PortId) (line : List Byte) (s : State) : Host.Outcome State Fault Refusal :=
  s.act fun p => p.receive port line

/-- INTER_BYTE_GAP: a gap above 50 µs on a port's line, and the byte after it (R161). -/
def execInterByteGap (port : PortId) (next : Byte) (s : State) : Host.Outcome State Fault Refusal :=
  s.act fun p => p.onPort port fun r => r.gap next

/-- SUPERVISOR_FRAME_FORWARD: a supervisor-port frame that is for no unit (R165). -/
def execSupervisorFrameForward (s : State) : Host.Outcome State Fault Refusal :=
  s.act fun p => p.forwardSup

/-- CRANE_FRAME_FORWARD: a crane-port frame that is for no unit (R166). -/
def execCraneFrameForward (s : State) : Host.Outcome State Fault Refusal :=
  s.act fun p => p.forwardCrane

/-- FRAME_SENT: a transmitter completes its frame (R169). -/
def execFrameSent (port : PortId) (s : State) : Host.Outcome State Fault Refusal :=
  s.act fun p => p.frameSent port

/-- REPLY_ENTRY_GRANT: a free REPLY entry goes to a waiting producer (R173). -/
def execReplyEntryGrant (s : State) : Host.Outcome State Fault Refusal :=
  s.act fun p => p.grantReply

/-- PENDING_COMMAND_QUEUED: a pending crane command enters NORMAL (R61). -/
def execPendingCommandQueued (s : State) : Host.Outcome State Fault Refusal :=
  s.act fun p => p.queuePending

/-- POSITION: a POSITION telegram (R6 to R11). -/
def execPosition (s : State) : Host.Outcome State Fault Refusal :=
  s.act fun p => p.positionFrame

/-- LOAD: a LOAD telegram (R78). -/
def execLoad (s : State) : Host.Outcome State Fault Refusal :=
  s.act fun p => p.loadFrame

/-- DONE: a DONE telegram (R63). -/
def execDone (s : State) : Host.Outcome State Fault Refusal :=
  s.act fun p => p.doneFrame

/-- BAY_REPORT: a BAY_REPORT (R138). -/
def execBayReport (s : State) : Host.Outcome State Fault Refusal :=
  s.act fun p => p.bayReportFrame

/-- GOTO: a GOTO order (R55). -/
def execGoto (s : State) : Host.Outcome State Fault Refusal :=
  s.act fun p => p.orderFrame .goto .goto

/-- PICK: a PICK order (R55). -/
def execPick (s : State) : Host.Outcome State Fault Refusal :=
  s.act fun p => p.orderFrame .pick .pick

/-- PLACE: a PLACE order (R55). -/
def execPlace (s : State) : Host.Outcome State Fault Refusal :=
  s.act fun p => p.orderFrame .place .place

/-- PARK: a PARK order (R55). -/
def execPark (s : State) : Host.Outcome State Fault Refusal :=
  s.act fun p => p.orderFrame .park .park

/-- HALT: a HALT for a crane (R65). -/
def execHalt (s : State) : Host.Outcome State Fault Refusal :=
  s.act fun p => p.haltFrame

/-- BROADCAST_HALT: a broadcast HALT (R65, R171). -/
def execBroadcastHalt (s : State) : Host.Outcome State Fault Refusal :=
  s.act fun p => p.broadcastHaltFrame

/-- STALE_EXPIRY: a crane's stale expiry (R12). -/
def execStaleExpiry (crane : Fin 4) (s : State) : Host.Outcome State Fault Refusal :=
  s.act fun p => p.expireStale crane

/-- HOLD_EXPIRY: a zone's hold expiry (R42). -/
def execHoldExpiry (zone : Fin 32) (s : State) : Host.Outcome State Fault Refusal :=
  s.act fun p => p.expireHoldOf zone.val

/-- RESERVATION_EXPIRY: a slot's reservation expiry (R114). -/
def execReservationExpiry (slot : Nat) (s : State) : Host.Outcome State Fault Refusal :=
  s.act fun p => p.expireReservation slot

/-- WEIGH_EXPIRY: a lift's weigh expiry (R87). -/
def execWeighExpiry (crane : Fin 4) (s : State) : Host.Outcome State Fault Refusal :=
  s.act fun p => p.expireWeigh crane

/-- RE_ARM_EXPIRY: a bay's re-arm expiry (R148). -/
def execReArmExpiry (bay : Fin 6) (s : State) : Host.Outcome State Fault Refusal :=
  s.act fun p => p.expireRearm bay

/-- FLASH_TIMER_EXPIRY: a bay's flash timer expiry (R157). -/
def execFlashTimerExpiry (bay : Fin 6) (s : State) : Host.Outcome State Fault Refusal :=
  s.act fun p => p.expireFlash bay

/-- DWELL_END: the end of a poll dwell (R137, R139). -/
def execDwellEnd (s : State) : Host.Outcome State Fault Refusal :=
  s.act fun p => p.expireDwell

/-- FILTER_SAMPLE: a sample of the discrete inputs (R71). -/
def execFilterSample (levels : Samples) (s : State) : Host.Outcome State Fault Refusal :=
  s.act fun p => p.sampleInputs levels

/-- INPUT_LEVEL_ACCEPTED: an input's level is accepted (R71). -/
def execInputLevelAccepted (line : Nat) (s : State) : Host.Outcome State Fault Refusal :=
  s.act fun p => p.inputAccepted line

/-- CHECK_DELAY_END: a check delay ends (R72). -/
def execCheckDelayEnd (line : Nat) (s : State) : Host.Outcome State Fault Refusal :=
  s.act fun p => p.endDelay line

/-- ALLOCATE: an ALLOCATE frame (R121). -/
def execAllocate (s : State) : Host.Outcome State Fault Refusal :=
  s.act fun p => p.allocateFrame

/-- ALLOCATION_SEARCH: the engine starts a search (R125). -/
def execAllocationSearch (s : State) : Host.Outcome State Fault Refusal :=
  s.act fun p => if p.searchDue then p.startSearch else p

/-- ALLOCATION_SEARCH_COMPLETE: a search is served and answered (R131). -/
def execAllocationSearchComplete (s : State) : Host.Outcome State Fault Refusal :=
  s.act fun p => p.finishSearch

/-- SLOT_MAP_REQUEST_SERVED: a request that waited at the slot map is served (R118). -/
def execSlotMapRequestServed (s : State) : Host.Outcome State Fault Refusal :=
  s.act fun p => p.serveRequest

/-- TABLE_WRITE_CRANE: a write of the crane table (R2). -/
def execTableWriteCrane (s : State) : Host.Outcome State Fault Refusal :=
  s.act fun p => p.manage .tableWrite (namesTable 1) fun f p => serveCraneTable f p.await

/-- TABLE_WRITE_ZONE: a write of the zone table (R23). -/
def execTableWriteZone (s : State) : Host.Outcome State Fault Refusal :=
  s.act fun p => p.manage .tableWrite (namesTable 2) serveZoneTable

/-- TABLE_WRITE_ENTRY: a write of the entry table (R51). -/
def execTableWriteEntry (s : State) : Host.Outcome State Fault Refusal :=
  s.act fun p => p.manage .tableWrite (namesTable 3) serveEntryTable

/-- TABLE_WRITE_BLOCK: a write of the block table (R97). -/
def execTableWriteBlock (s : State) : Host.Outcome State Fault Refusal :=
  s.act fun p => p.manageSlots .tableWrite (namesTable 4) serveBlockTable

/-- TABLE_WRITE_SLOT_GEOMETRY: a write of the slot geometry table (R99). -/
def execTableWriteSlotGeometry (s : State) : Host.Outcome State Fault Refusal :=
  s.act fun p => p.manageSlots .tableWrite (namesTable 5) serveGeometryTable

/-- TABLE_WRITE_GROUP_MAP: a write of the group routing map, which waits behind a search at the slot map (R127). -/
def execTableWriteGroupMap (s : State) : Host.Outcome State Fault Refusal :=
  s.act fun p => p.manageSlots .tableWrite (namesTable 6) serveGroupMap

/-- TABLE_WRITE_CALIBRATION: a write of a calibration table (R75). -/
def execTableWriteCalibration (s : State) : Host.Outcome State Fault Refusal :=
  s.act fun p => p.manage .tableWrite (namesTable 7) serveCalibration

/-- TABLE_WRITE_BAY: a write of the bay table (R135). -/
def execTableWriteBay (s : State) : Host.Outcome State Fault Refusal :=
  s.act fun p => p.manage .tableWrite (namesTable 8) fun f p => serveBayTable f p.await

/-- TABLE_WRITE_PARAMETERS: a write of the parameter table (R178). -/
def execTableWriteParameters (s : State) : Host.Outcome State Fault Refusal :=
  s.act fun p => p.parameterFrame

/-- TABLE_READ: a table read (R179). -/
def execTableRead (s : State) : Host.Outcome State Fault Refusal :=
  s.act fun p => p.tableReadFrame

/-- QUERY_CRANE: a crane query (R180). -/
def execQueryCrane (s : State) : Host.Outcome State Fault Refusal :=
  s.act fun p => p.manage .query (namesQuery 1) serveQueryCrane

/-- QUERY_ZONE: a zone query (R180). -/
def execQueryZone (s : State) : Host.Outcome State Fault Refusal :=
  s.act fun p => p.manage .query (namesQuery 2) serveQueryZone

/-- QUERY_SLOT: a slot query (R180). -/
def execQuerySlot (s : State) : Host.Outcome State Fault Refusal :=
  s.act fun p => p.manageSlots .query (namesQuery 3) serveQuerySlot

/-- QUERY_BLOCK_SUMS: a query of the block sums (R98). -/
def execQueryBlockSums (s : State) : Host.Outcome State Fault Refusal :=
  s.act fun p => p.manageSlots .query (namesQuery 4) serveQueryBlockSums

/-- QUERY_HOOK: a hook query (R94). -/
def execQueryHook (s : State) : Host.Outcome State Fault Refusal :=
  s.act fun p => p.manage .query (namesQuery 5) serveQueryHook

/-- QUERY_BAY: a bay query (R158). -/
def execQueryBay (s : State) : Host.Outcome State Fault Refusal :=
  s.act fun p => p.manage .query (namesQuery 6) serveQueryBay

/-- QUERY_LINK: a link query (R174). -/
def execQueryLink (s : State) : Host.Outcome State Fault Refusal :=
  s.act fun p => p.manage .query (namesQuery 7) serveQueryLink

/-- QUERY_PART: a query of the part (R180). -/
def execQueryPart (s : State) : Host.Outcome State Fault Refusal :=
  s.act fun p => p.manage .query namesPart serveQueryPart

/-- QUERY_SUMMARY: a query of the summary flags (R181). -/
def execQuerySummary (s : State) : Host.Outcome State Fault Refusal :=
  s.act fun p => p.manage .query (namesQuery 9) serveQuerySummary

/-- RESERVE: a RESERVE frame (R113). -/
def execReserve (s : State) : Host.Outcome State Fault Refusal :=
  s.act fun p => p.manageSlots .reserve anyForm serveReserve

/-- UNRESERVE: an UNRESERVE frame (R115). -/
def execUnreserve (s : State) : Host.Outcome State Fault Refusal :=
  s.act fun p => p.manageSlots .unreserve anyForm serveUnreserve

/-- SLOT_SET: a SLOT_SET frame (R116). -/
def execSlotSet (s : State) : Host.Outcome State Fault Refusal :=
  s.act fun p => p.manageSlots .slotSet anyForm serveSlotSet

/-- PLAN_LOAD: a PLAN_LOAD frame (R140). -/
def execPlanLoad (s : State) : Host.Outcome State Fault Refusal :=
  s.act fun p => p.manage .planLoad anyForm fun f p => servePlanLoad f p.await

/-- PLAN_CLEAR: a PLAN_CLEAR frame (R141). -/
def execPlanClear (s : State) : Host.Outcome State Fault Refusal :=
  s.act fun p => p.manage .planClear anyForm fun f p => servePlanClear f p.await

/-- BAY_ACK: a BAY_ACK frame (R149). -/
def execBayAck (s : State) : Host.Outcome State Fault Refusal :=
  s.act fun p => p.manage .bayAck anyForm fun f p => serveBayAck f p.await

/-- HOLD: a HOLD frame (R40). -/
def execHold (s : State) : Host.Outcome State Fault Refusal :=
  s.act fun p => p.manage .hold anyForm serveHold

/-- UNHOLD: an UNHOLD frame (R41). -/
def execUnhold (s : State) : Host.Outcome State Fault Refusal :=
  s.act fun p => p.manage .unhold anyForm fun f p => serveUnhold f p.await

/-- BLOCK: a BLOCK frame (R45). -/
def execBlock (s : State) : Host.Outcome State Fault Refusal :=
  s.act fun p => p.manage .block anyForm fun f p => serveBlock f p.await

/-- UNBLOCK: an UNBLOCK frame (R46). -/
def execUnblock (s : State) : Host.Outcome State Fault Refusal :=
  s.act fun p => p.manage .unblock anyForm serveUnblock

/-- STOP_RELEASE: a STOP_RELEASE frame (R68). -/
def execStopRelease (s : State) : Host.Outcome State Fault Refusal :=
  s.act fun p => p.manage .stopRelease anyForm fun f p => serveStopRelease f p.await

/-- MODE_RUN: a MODE frame that does not ask for MAINTENANCE (R187 to R189). -/
def execModeRun (s : State) : Host.Outcome State Fault Refusal :=
  s.act fun p => p.manage .mode asksOther fun f p => serveMode f p.await

/-- MODE_MAINTENANCE: a MODE frame that asks for MAINTENANCE (R187, R190). -/
def execModeMaintenance (s : State) : Host.Outcome State Fault Refusal :=
  s.act fun p => p.manage .mode asksMaintenance fun f p => serveMode f p.await

/-- RESTART: a RESTART frame (R191); it waits for the requests at the slot map (R120). -/
def execRestart (s : State) : Host.Outcome State Fault Refusal :=
  s.act fun p => p.manage .restart anyForm fun f p => serveRestart f p.settle

/-- FRAME_LENGTH_ABOVE_60: a length byte above 60 arrives where a frame's length is expected (R161). -/
def execFrameLengthAbove60 (port : PortId) (length : Byte) (s : State) : Host.Outcome State Fault Refusal :=
  s.act fun p =>
    p.onPort port fun r => if r.expectsLength && decide (Config.maxPayload < length.toNat) then r.feed length else r

end Sys2Proof.Machine
end

