-- ==== Sys2Proof/Machine/Dispatch.lean ====
section
/-! DEFINITION. One arm per command. -/

namespace Sys2Proof.Machine

def exec (i : Instr) (s : State) : Host.Outcome State Fault Refusal :=
  match i with
  | .powerOn straps => Sys2Proof.Machine.execPowerOn straps s
  | .resetLineAsserted => Sys2Proof.Machine.execResetLineAsserted s
  | .resetLineReleased straps => Sys2Proof.Machine.execResetLineReleased straps s
  | .frameReceived port line => Sys2Proof.Machine.execFrameReceived port line s
  | .interByteGap port next => Sys2Proof.Machine.execInterByteGap port next s
  | .supervisorFrameForward => Sys2Proof.Machine.execSupervisorFrameForward s
  | .craneFrameForward => Sys2Proof.Machine.execCraneFrameForward s
  | .frameSent port => Sys2Proof.Machine.execFrameSent port s
  | .replyEntryGrant => Sys2Proof.Machine.execReplyEntryGrant s
  | .pendingCommandQueued => Sys2Proof.Machine.execPendingCommandQueued s
  | .position => Sys2Proof.Machine.execPosition s
  | .load => Sys2Proof.Machine.execLoad s
  | .done => Sys2Proof.Machine.execDone s
  | .bayReport => Sys2Proof.Machine.execBayReport s
  | .goto => Sys2Proof.Machine.execGoto s
  | .pick => Sys2Proof.Machine.execPick s
  | .place => Sys2Proof.Machine.execPlace s
  | .park => Sys2Proof.Machine.execPark s
  | .halt => Sys2Proof.Machine.execHalt s
  | .broadcastHalt => Sys2Proof.Machine.execBroadcastHalt s
  | .staleExpiry crane => Sys2Proof.Machine.execStaleExpiry crane s
  | .holdExpiry zone => Sys2Proof.Machine.execHoldExpiry zone s
  | .reservationExpiry slot => Sys2Proof.Machine.execReservationExpiry slot s
  | .weighExpiry crane => Sys2Proof.Machine.execWeighExpiry crane s
  | .reArmExpiry bay => Sys2Proof.Machine.execReArmExpiry bay s
  | .flashTimerExpiry bay => Sys2Proof.Machine.execFlashTimerExpiry bay s
  | .dwellEnd => Sys2Proof.Machine.execDwellEnd s
  | .filterSample levels => Sys2Proof.Machine.execFilterSample levels s
  | .inputLevelAccepted line => Sys2Proof.Machine.execInputLevelAccepted line s
  | .checkDelayEnd line => Sys2Proof.Machine.execCheckDelayEnd line s
  | .allocate => Sys2Proof.Machine.execAllocate s
  | .allocationSearch => Sys2Proof.Machine.execAllocationSearch s
  | .allocationSearchComplete => Sys2Proof.Machine.execAllocationSearchComplete s
  | .slotMapRequestServed => Sys2Proof.Machine.execSlotMapRequestServed s
  | .tableWriteCrane => Sys2Proof.Machine.execTableWriteCrane s
  | .tableWriteZone => Sys2Proof.Machine.execTableWriteZone s
  | .tableWriteEntry => Sys2Proof.Machine.execTableWriteEntry s
  | .tableWriteBlock => Sys2Proof.Machine.execTableWriteBlock s
  | .tableWriteSlotGeometry => Sys2Proof.Machine.execTableWriteSlotGeometry s
  | .tableWriteGroupMap => Sys2Proof.Machine.execTableWriteGroupMap s
  | .tableWriteCalibration => Sys2Proof.Machine.execTableWriteCalibration s
  | .tableWriteBay => Sys2Proof.Machine.execTableWriteBay s
  | .tableWriteParameters => Sys2Proof.Machine.execTableWriteParameters s
  | .tableRead => Sys2Proof.Machine.execTableRead s
  | .queryCrane => Sys2Proof.Machine.execQueryCrane s
  | .queryZone => Sys2Proof.Machine.execQueryZone s
  | .querySlot => Sys2Proof.Machine.execQuerySlot s
  | .queryBlockSums => Sys2Proof.Machine.execQueryBlockSums s
  | .queryHook => Sys2Proof.Machine.execQueryHook s
  | .queryBay => Sys2Proof.Machine.execQueryBay s
  | .queryLink => Sys2Proof.Machine.execQueryLink s
  | .queryPart => Sys2Proof.Machine.execQueryPart s
  | .querySummary => Sys2Proof.Machine.execQuerySummary s
  | .reserve => Sys2Proof.Machine.execReserve s
  | .unreserve => Sys2Proof.Machine.execUnreserve s
  | .slotSet => Sys2Proof.Machine.execSlotSet s
  | .planLoad => Sys2Proof.Machine.execPlanLoad s
  | .planClear => Sys2Proof.Machine.execPlanClear s
  | .bayAck => Sys2Proof.Machine.execBayAck s
  | .hold => Sys2Proof.Machine.execHold s
  | .unhold => Sys2Proof.Machine.execUnhold s
  | .block => Sys2Proof.Machine.execBlock s
  | .unblock => Sys2Proof.Machine.execUnblock s
  | .stopRelease => Sys2Proof.Machine.execStopRelease s
  | .modeRun => Sys2Proof.Machine.execModeRun s
  | .modeMaintenance => Sys2Proof.Machine.execModeMaintenance s
  | .restart => Sys2Proof.Machine.execRestart s
  | .frameLengthAbove60 port length => Sys2Proof.Machine.execFrameLengthAbove60 port length s

end Sys2Proof.Machine
end

