-- ==== Sys2Proof/Machine/Schedule.lean ====
section
/-! DEFINITION. What the part does when no command waits (log 1, log 2): the first internal event that is due is commanded, and when
none is, a millisecond passes and each frame in transmission ends. -/

namespace Sys2Proof.Machine

/-- The table a TABLE_WRITE names (R178). -/
def tableCommand (payload : List Byte) : Instr :=
  if namesTable 1 payload then .tableWriteCrane
  else if namesTable 2 payload then .tableWriteZone
  else if namesTable 3 payload then .tableWriteEntry
  else if namesTable 4 payload then .tableWriteBlock
  else if namesTable 5 payload then .tableWriteSlotGeometry
  else if namesTable 6 payload then .tableWriteGroupMap
  else if namesTable 7 payload then .tableWriteCalibration
  else if namesTable 8 payload then .tableWriteBay
  else .tableWriteParameters

/-- The kind a QUERY names (R180). -/
def queryCommand (payload : List Byte) : Instr :=
  if namesQuery 1 payload then .queryCrane
  else if namesQuery 2 payload then .queryZone
  else if namesQuery 3 payload then .querySlot
  else if namesQuery 4 payload then .queryBlockSums
  else if namesQuery 5 payload then .queryHook
  else if namesQuery 6 payload then .queryBay
  else if namesQuery 7 payload then .queryLink
  else if namesQuery 9 payload then .querySummary
  else .queryPart

/-- The command of a management frame (R164, R176). -/
def managementCommand (k : Kind) (payload : List Byte) : Option Instr :=
  match k with
  | .tableWrite => some (tableCommand payload)
  | .tableRead => some .tableRead
  | .query => some (queryCommand payload)
  | .allocate => some .allocate
  | .reserve => some .reserve
  | .unreserve => some .unreserve
  | .slotSet => some .slotSet
  | .planLoad => some .planLoad
  | .planClear => some .planClear
  | .bayAck => some .bayAck
  | .hold => some .hold
  | .unhold => some .unhold
  | .block => some .block
  | .unblock => some .unblock
  | .stopRelease => some .stopRelease
  | .mode => some (if asksMaintenance payload then .modeMaintenance else .modeRun)
  | .restart => some .restart
  | _ => none

/-- The command of an order frame for a crane (R164). -/
def orderCommand (k : Kind) : Option Instr :=
  match k with
  | .goto => some .goto
  | .pick => some .pick
  | .place => some .place
  | .park => some .park
  | .halt => some .halt
  | _ => none

/-- The command that takes the head of the supervisor-port FIFO, when its destination takes it (R163). -/
def Part.supCommand (p : Part) : Option Instr :=
  match p.supHead with
  | none => none
  | some f =>
    match p.classifySup f with
    | .responder k => if p.takesManagement then managementCommand k f.payload else none
    | .order k _ => if p.gateTakes then orderCommand k else none
    | .broadcastHalt => if p.gateTakes then some .broadcastHalt else none
    | .forward => if p.link.normalRoom then some .supervisorFrameForward else none
    | .refused => some .supervisorFrameForward
    | .unclaimed => some .supervisorFrameForward

/-- The command that takes the head of the crane-port FIFO (R163). -/
def Part.craneCommand (p : Part) : Option Instr :=
  match p.craneHead with
  | none => none
  | some f =>
    match p.classifyCrane f with
    | .position _ => some .position
    | .load _ => some .load
    | .done _ _ => some .done
    | .bayReport _ => some .bayReport
    | .telemetry _ => some .craneFrameForward
    | .refused => some .craneFrameForward
    | .conflict => some .craneFrameForward

/-- The commands of the link's queues and of the units that wait. -/
def Part.queueCommands (p : Part) : List (Option Instr) :=
  [ p.supCommand, p.craneCommand,
    if p.link.replyRoom && p.nextProducer.isSome then some .replyEntryGrant else none,
    if p.pendingDue then some .pendingCommandQueued else none,
    if p.heldAllocate.isSome && p.engine.answers.isEmpty then some .allocate else none ]

/-- The expiries that have passed (R182). -/
def Part.expiryCommands (p : Part) : List (Option Instr) :=
  [ (craneList.find? p.staleDue).map .staleExpiry,
    ((List.finRange 32).find? fun k => p.holdDue k.val).map .holdExpiry,
    (p.slots.slots.find? fun e => p.reservationDue e.1).map fun e => .reservationExpiry e.1,
    (craneList.find? p.weighDue).map .weighExpiry, (bayList.find? p.rearmDue).map .reArmExpiry,
    (bayList.find? p.flashDue).map .flashTimerExpiry, if p.dwellDue then some .dwellEnd else none,
    (lineList.find? p.levelDue).map .inputLevelAccepted, (lineList.find? p.delayDue).map .checkDelayEnd ]

/-- The commands of the allocation engine and the slot map. -/
def Part.storeCommands (p : Part) : List (Option Instr) :=
  [ if p.searchDue then some .allocationSearch else none,
    match p.slots.requests with
    | [] => none
    | .search :: _ => some .allocationSearchComplete
    | _ :: _ => some .slotMapRequestServed ]

/-- The first command of a list that stands. -/
def firstOf : List (Option Instr) → Option Instr
  | [] => none
  | some i :: _ => some i
  | none :: rest => firstOf rest

/-- The internal event that is due first (log 1). -/
def Part.due (p : Part) : Option Instr := firstOf (p.queueCommands ++ p.expiryCommands ++ p.storeCommands)

/-- The transmissions that end in a millisecond (log 2). -/
def Part.endings (p : Part) : List Instr :=
  (if p.link.sup.tx.isSome then [.frameSent .supervisor] else [])
    ++ (if p.link.crane.tx.isSome then [.frameSent .crane] else [])

/-- A millisecond passes (R182). -/
def Part.tick (p : Part) : Part := { p with mgmt := { p.mgmt with clock := p.mgmt.clock + 1 } }

/-- What happens when no command waits: nothing in reset; else the event that is due is commanded; else a millisecond passes
(log 1, log 2). -/
def State.idle (s : State) : State :=
  if s.part.inReset then s
  else
    match s.part.due with
    | some i => { s with pending := [i] }
    | none => ⟨s.part.tick, s.part.endings⟩

end Sys2Proof.Machine
end

