-- ==== Sys2Proof/Safety.lean ====
section
/-! DEFINITION. What a sound state is: the laws of the spec that every step keeps, and the situations the statements speak of. -/

namespace Sys2Proof.Machine

/-! ## Laws that every step keeps -/

/-- "The crane-port URGENT queue holds at most one entry per crane" (R170). -/
abbrev Part.UrgentUnique (p : Part) : Prop := p.link.urgent.Pairwise fun a b => a.crane ≠ b.crane

/-- "A crane's stop output is asserted exactly while its stop latch holds at least one cause" (R67). -/
abbrev Part.StopLinesFollow (p : Part) : Prop :=
  ∀ c : Fin 4, p.lines.stop[c].commanded = (p.latch c).causes.any

/-- The slot table is in its canonical form (log 8). -/
abbrev Part.SlotsSorted (p : Part) : Prop := p.slots.Sorted

/-- The queues of the link stay within the capacities of R163, R170 to R173 and the notice queue within that of R183. -/
abbrev Part.WithinCapacity (p : Part) : Prop :=
  p.link.sup.fifo.length ≤ Config.fifoDepth ∧ p.link.crane.fifo.length ≤ Config.fifoDepth
    ∧ p.link.normal.length ≤ Config.normalCapacity ∧ p.link.telemetry.length ≤ Config.telemetryCapacity
    ∧ p.link.reply.length ≤ Config.replyCapacity ∧ p.mgmt.notices.length ≤ Config.noticeCapacity

/-! ## Situations -/

/-- The state with another part and the same commands waiting. -/
def State.withPart (s : State) (p : Part) : State := { s with part := p }

/-- A port by its name. -/
def Part.port (p : Part) : PortId → Port
  | .supervisor => p.link.sup
  | .crane => p.link.crane

/-- The bytes of a frame on the line: start mark, the bytes the check covers, and the check low byte first (R161). -/
def Frame.wire (f : Frame) : List Byte := 0xA7 :: (f.covered ++ le 2 f.check.toNat)

/-- A management frame of a kind from station 0 stands at the head of the supervisor-port FIFO, and the responder holds no
earlier frame and no unsent reply (R164, R165, R176). -/
abbrev State.Request (s : State) (k : Kind) (f : Frame) : Prop :=
  s.part.inReset = false ∧ s.part.supHead = some f ∧ f.kind = k.code ∧ f.dest = s.part.link.station ∧ f.src = 0
    ∧ s.part.mgmt.held = none ∧ s.part.mgmt.reply = none

/-- A frame of a kind for a configured crane stands at the head of the supervisor-port FIFO, and the gate owes no verdict
(R56, R164, R165). -/
abbrev State.OrderFor (s : State) (k : Kind) (c : Fin 4) (f : Frame) : Prop :=
  s.part.inReset = false ∧ s.part.supHead = some f ∧ f.kind = k.code ∧ s.part.craneAt f.dest = some c
    ∧ f.dest ≠ s.part.link.station ∧ s.part.gate.verdicts = []

/-- A frame of a kind stands at the head of the crane-port FIFO, its source that of a configured crane when it reached the head (R164,
R166). -/
abbrev State.TelegramFrom (s : State) (k : Kind) (c : Fin 4) (f : Frame) : Prop :=
  s.part.inReset = false ∧ s.part.craneHead = some f ∧ f.kind = k.code ∧ s.part.senderOf f = .crane c
    ∧ f.src ≠ 0 ∧ f.src ≠ 31 ∧ f.src ≠ s.part.link.station

/-- A BAY_REPORT stands at the head of the crane-port FIFO, its source that of a configured bay's unit when it reached the head (R164,
R166). -/
abbrev State.ReportFrom (s : State) (b : Fin 6) (f : Frame) : Prop :=
  s.part.inReset = false ∧ s.part.craneHead = some f ∧ f.kind = Kind.bayReport.code
    ∧ s.part.senderOf f = .bay b ∧ f.src ≠ 0 ∧ f.src ≠ 31 ∧ f.src ≠ s.part.link.station

/-- No request waits at the slot map (R118). -/
abbrev State.Quiet (s : State) : Prop := s.part.slots.requests = []

/-- A TABLE_WRITE payload of a table, well formed, with its first index and its entries (R178, log 7). -/
abbrev WritesTable (payload : List Byte) (table first : Nat) (entries : List (List Byte)) : Prop :=
  field payload 0 1 = table ∧ readTableWrite payload = .entries first entries

/-- The part once the frame at the head of the crane-port FIFO has gone to TELEMETRY (R166). -/
def Part.forwarded (p : Part) (f : Frame) : Part := p.onLink (Link.pushTelemetry f)

/-- What a bay's polls and reports brought (R138, R139). -/
def BayRecord.pollFacts (r : BayRecord) : Bool × Nat × Nat × Nat × Nat × Option Report :=
  (r.pollStale, r.misses, r.totalMisses, r.malformed, r.late, r.last)

/-- The order a GOTO or PARK leaves when it is forwarded whole at once (R54, R55, R61). -/
def Part.forwardedOrder (p : Part) (c : Fin 4) (r : OrderRequest) (t : Point) : Order :=
  { p.newOrder c r t with permitted := t.x, state := .forwarded, lastSeq := some p.link.seq }

/-- The oldest frame that a producer of REPLY holds, as kind and payload, with the part once the producer has given it up
(R56, R126, R173, R176, R183). -/
def Part.oldest (p : Part) : Producer → Option (Kind × List Byte × Part)
  | .gate => p.gate.verdicts.head?.map fun v =>
      (.verdict, v.payload, { p with gate := { p.gate with verdicts := p.gate.verdicts.tail } })
  | .responder => p.mgmt.reply.map fun r => (.reply, r.payload, { p with mgmt := { p.mgmt with reply := none } })
  | .engine => p.engine.answers.head?.map fun a =>
      (.reply, a.payload, { p with engine := { p.engine with answers := p.engine.answers.tail } })
  | .notices => p.mgmt.notices.head?.map fun n =>
      (.notice, n.payload, { p with mgmt := { p.mgmt with notices := p.mgmt.notices.tail } })

/-- Two frames have the same source and kind (R172). -/
abbrev Frame.Alike (f g : Frame) : Prop := g.src = f.src ∧ g.kind = f.kind

/-- What TELEMETRY keeps for a frame that joins it, and the discard count it then has: everything while there is room; without the
oldest frame alike when it is full; without the oldest of all when none is alike (R172). -/
abbrev Link.MakesRoom (l : Link) (f : Frame) (kept : List Frame) (discards : Nat) : Prop :=
  (l.telemetry.length < 32 ∧ kept = l.telemetry ∧ discards = l.sup.counts.telemetryDiscards)
    ∨ (32 ≤ l.telemetry.length ∧ discards = bump l.sup.counts.telemetryDiscards
        ∧ ((∃ a g b, l.telemetry = a ++ g :: b ∧ (∀ h ∈ a, ¬ f.Alike h) ∧ f.Alike g ∧ kept = a ++ b)
          ∨ ((∀ h ∈ l.telemetry, ¬ f.Alike h) ∧ kept = l.telemetry.tail)))

/-- The link once a frame has joined TELEMETRY (R172). -/
def Link.telemetryOf (l : Link) (kept : List Frame) (f : Frame) (discards : Nat) : Link :=
  Link.startSupervisor
    { l with telemetry := kept ++ [f], sup := { l.sup with counts := { l.sup.counts with telemetryDiscards := discards } } }

/-- What stays the same in every step that is no start, no table write and no change of mode: the tables, the parameters, the
mode, the clock and the station. -/
structure Part.SameTables (p q : Part) : Prop where
  entries : q.tracker.entries = p.tracker.entries
  zones : ∀ k, (q.zone k).entry = (p.zone k).entry
  entryPoints : q.gate.entryPoints = p.gate.entryPoints
  blocks : q.slots.blocks = p.slots.blocks
  geometry : ∀ i, (q.slots.slot i).map Slot.geo = (p.slots.slot i).map Slot.geo
  routing : q.engine.routing = p.engine.routing
  bayEntries : q.bays.entries = p.bays.entries
  params : q.params = p.params
  mode : q.mgmt.mode = p.mgmt.mode
  clock : q.mgmt.clock = p.mgmt.clock
  station : q.link.station = p.link.station

/-- The commands that start the part afresh (R192). -/
def startsPart : Instr → Bool
  | .powerOn _ => true
  | .resetLineAsserted => true
  | .resetLineReleased _ => true
  | _ => false

/-- The four order commands with their frame kinds and order kinds (R52). -/
def orderForms : List (Instr × Kind × OrderKind) :=
  [(.goto, .goto, .goto), (.pick, .pick, .pick), (.place, .place, .place), (.park, .park, .park)]

/-- An order that passes every check: RUN, TRACKED, no stop cause, READY or MOVING, no active order before it, checks 6 to 11 passed,
and no command of its own waiting for NORMAL (R55, R61). -/
abbrev State.Accepts (s : State) (c : Fin 4) (r : OrderRequest) (t : Point) : Prop :=
  s.Quiet ∧ s.part.mgmt.mode = .run ∧ (s.part.record c).tracking = .tracked ∧ (s.part.latch c).causes.any = false
    ∧ ((s.part.record c).last.any fun x => x.drive == .ready || x.drive == .moving) = true
    ∧ s.part.activeOrder c = none ∧ s.part.resolve c r.kind r.loc = some t ∧ s.part.orderChecks c r.kind r.loc t = none
    ∧ s.part.link.normal.length < 16 ∧ c ∉ s.part.gate.pendingTurn

/-- An order that its crane may take whole at once: it passes every check and every needed zone is in the crane's grant (R55, R58,
R59). -/
abbrev State.Granted (s : State) (c : Fin 4) (r : OrderRequest) (t : Point) : Prop :=
  s.Accepts c r t
    ∧ ((s.part.run c).any fun g => decide (g.lo ≤ s.part.zoneOf (s.part.span c t.x).1)
        && decide (s.part.zoneOf (s.part.span c t.x).2 ≤ g.hi)) = true

/-- The needed zones of a crane at a target x: those of the west and of the east end of its span (R34, R58). -/
def Part.zonesAt (p : Part) (c : Fin 4) (x : Nat) : Nat × Nat := (p.zoneOf (p.span c x).1, p.zoneOf (p.span c x).2)

/-- The zone that the zone step of an order asks for first, when its target needs zones outside the grant: in the first direction, EAST
unless the target lies west of the recorded x, and then in the other (R58). -/
abbrev Part.AsksFor (p : Part) (c : Fin 4) (x : Nat) (g : Run) (k : Nat) : Prop :=
  let (lo, hi) := p.zonesAt c x
  if p.craneX c ≤ x then (g.hi < hi ∧ k = g.hi + 1) ∨ (hi ≤ g.hi ∧ lo < g.lo ∧ k + 1 = g.lo)
  else (lo < g.lo ∧ k + 1 = g.lo) ∨ (g.lo ≤ lo ∧ g.hi < hi ∧ k = g.hi + 1)

/-- The candidate of a step with part of the span granted: the target brought into the grant range, when that is not empty and the
candidate lies on the target's side of the recorded x and not beyond the target (R59). -/
abbrev Part.StepsTo (p : Part) (c : Fin 4) (x : Nat) (g : Run) (cand : Nat) : Prop :=
  let e := p.entry c
  let west : Int := (p.zone g.lo).start + e.westExt + e.margin + e.allowance
  let east : Int := (p.zoneEnd g.hi : Int) - 1 - e.eastExt - e.margin - e.allowance
  west ≤ east ∧ (cand : Int) = max west (min east x)
    ∧ ((p.craneX c < cand ∧ cand ≤ x) ∨ (cand < p.craneX c ∧ x ≤ cand))

/-- A crane's claim on a zone as it joins the zone's waiters (R27, R28). -/
def Part.joined (p : Part) (c : Fin 4) (k : Fin 32) (cls : ClaimClass) : Part :=
  { p with arbiter := { p.arbiter with
      zones := p.arbiter.zones.set k { p.arbiter.zones[k] with waiters := p.arbiter.zones[k].waiters ++ [⟨c, cls, .order⟩] }
      claims := p.arbiter.claims.set c (some ⟨k, cls, .order⟩) } }

/-- The part once the grant run `r` of a crane has become the zones from `a` to `b`: zones that join it are granted to the crane, zones
that leave it are FREE (R26). -/
def Part.regrant (p : Part) (c : Fin 4) (r : Run) (a b : Nat) : Part :=
  let was := fun k : Fin 32 => r.lo ≤ k.val ∧ k.val ≤ r.hi
  let is := fun k : Fin 32 => a ≤ k.val ∧ k.val ≤ b
  { p with arbiter := { p.arbiter with
      zones := Vector.ofFn fun k => { p.arbiter.zones[k] with
        grant := if was k ∧ ¬ is k then none else if is k ∧ ¬ was k then some c else p.arbiter.zones[k].grant }
      runs := p.arbiter.runs.set c (some ⟨a, b⟩) } }

/-- A zone may be granted at once to a crane: FREE, not HELD, not blocked, and open to its hook (R25, R32, R47). -/
abbrev Part.Opens (p : Part) (c : Fin 4) (z : Zone) : Prop :=
  z.grant = none ∧ z.hold = none ∧ z.bayHold.any = false ∧ z.blocked = false ∧ (z.loaded = true ∨ (p.hook c).loaded = false)

/-- The accumulator of a window holds these samples: their number, sum, smallest and largest (R79). -/
abbrev Accumulator.Holds (a : Accumulator) (samples : List Int) : Prop :=
  if samples = [] then a = Accumulator.reset
  else a.number = samples.length ∧ a.sum = samples.sum ∧ a.smallest ∈ samples ∧ a.largest ∈ samples
    ∧ ∀ v ∈ samples, a.smallest ≤ v ∧ v ≤ a.largest

/-- The management commands whose payload has one length (R176; the lengths are log 7). -/
def exactForms : List (Instr × Kind × Nat) :=
  [(.tableRead, .tableRead, 4), (.allocate, .allocate, 19), (.reserve, .reserve, 14), (.unreserve, .unreserve, 4),
    (.hold, .hold, 6), (.unhold, .unhold, 4), (.block, .block, 4), (.unblock, .unblock, 4), (.planClear, .planClear, 1),
    (.bayAck, .bayAck, 1), (.stopRelease, .stopRelease, 1), (.modeRun, .mode, 1), (.restart, .restart, 0)]

/-- The link without the crane commands of a crane in NORMAL (R64). -/
def Link.withoutCommands (l : Link) (c : Fin 4) : Link :=
  { l with normal := l.normal.filter fun e => !e.sort.commands c }

/-- The crane command of an order as it enters NORMAL (R61, R62). -/
def Part.withCommand (p : Part) (c : Fin 4) (tag speed : Nat) (cmd : Command) : Part :=
  p.onLink (Link.pushNormal (.command c) (craneStation c) cmd.verb.kind
    (commandPayload tag cmd (p.travelSpeed c cmd.x speed)))

/-- The data of a query's answer: the part's number, how many there are, and up to 54 bytes (R180, log 8). -/
def answerData (bytes : List Byte) (n : Nat) : List Byte :=
  le 1 n ++ le 1 (max 1 ((bytes.length + 53) / 54)) ++ (bytes.drop (54 * n)).take 54

/-- A slot of tier 2 rests on two different defined tier-1 slots of its block and row (R99). -/
def Slot.restsIn (after : Nat → Option Slot) (s : Slot) : Bool :=
  match s.geo.tier with
  | .floor => true
  | .upper a b => a != b && [a, b].all fun i => (after i).any fun t =>
      t.geo.tier == .floor && t.geo.block == s.geo.block && t.geo.row == s.geo.row

end Sys2Proof.Machine
end

