-- ==== Sys2Proof/Certificates/Slice0/Obligations.lean ====
section
/-! DEFINITION. What is to be proved of the model, one definition per statement. Each docstring names the rules of the spec that the
statement formalises; OBLIGATIONS.json lists them. -/

open Sys2Proof Sys2Proof.Machine

/-! ## The machine as a whole -/

/-- A step takes the command at the front of the queue and runs it with the rest; with no command waiting the part acts by itself,
one event at a time, and otherwise a millisecond passes (the queue and the idle step are the model's, log 1 and log 2). -/
def Obligations.StepRunsTheFrontCommand : Prop :=
  (∀ (s : State) (c : Instr) (rest : List Instr), s.pending = c :: rest → step s = exec c { s with pending := rest })
    ∧ (∀ s : State, s.pending = [] → s.part.inReset = true → step s = .next s)
    ∧ (∀ (s : State) (c : Instr), s.pending = [] → s.part.inReset = false → s.part.due = some c →
        step s = .next { s with pending := [c] })
    ∧ ∀ s : State, s.pending = [] → s.part.inReset = false → s.part.due = none →
        step s = .next ⟨{ s.part with mgmt := { s.part.mgmt with clock := s.part.mgmt.clock + 1 } }, s.part.endings⟩

/-- After reset: every unit at its power-on value (R22, R49, R51, R71 to R73, R95, R119, R134, R159, R175, R186), and the laws of the
part hold. -/
def Obligations.ResetState : Prop :=
  let p := State.reset.part
  let unsampled := fun i : InputFilter => i.accepted = .unknown ∧ i.run = 0
  let dark := fun o : OutLine => o.commanded = false ∧ o.fault = false ∧ o.delay = none ∧ unsampled o.input
  State.reset.pending = [] ∧ p.mgmt.mode = .startup ∧ p.mgmt.clock = 0 ∧ p.mgmt.notices = [] ∧ p.mgmt.lost = 0
    ∧ p.mgmt.held = none ∧ p.mgmt.reply = none
    ∧ p.link.seq = 0 ∧ p.link.sup = Port.reset ∧ p.link.crane = Port.reset
    ∧ p.link.urgent = [] ∧ p.link.normal = [] ∧ p.link.reply = [] ∧ p.link.telemetry = []
    ∧ p.link.turn = [.gate, .responder, .engine, .notices]
    ∧ (∀ c : Fin 4, p.entry c = ⟨false, 0, 0, 0, 0, 0, 0, 0, 0, 0, 0, 0, false, .normal, 0, 0⟩
        ∧ p.record c = ⟨.unseen, none, none, 0, 0, 0, 0⟩ ∧ p.tracker.crossed[c] = false ∧ p.order c = none
        ∧ p.run c = none ∧ p.claim c = none ∧ (p.latch c).causes.any = false ∧ (∀ b : Fin 6, (p.latch c).bays[b] = false)
        ∧ p.gate.entryPoints[c] = ⟨false, 0, 0, 0⟩ ∧ dark p.lines.stop[c]
        ∧ p.hook c =
          { state := .empty, gripper := .opened, coil := none, source := none, dest := none, quiet := 0, lift := none,
            tare := none, suspect := false, lastWindow := none, lost := none, late := 0, malformed := 0, unsettled := 0,
            lostCount := 0, acc := ⟨0, 0, 0, 0⟩, loadSeq := none, active := none, staged := none }
        ∧ p.engine.deferred[c] = none)
    ∧ p.gate.verdicts = [] ∧ p.gate.pendingTurn = []
    ∧ (∀ k : Fin 32, let z := p.arbiter.zones[k]
        z.defined = false ∧ z.start = 0 ∧ z.cap = 0 ∧ z.loaded = false ∧ z.bay = none ∧ z.grant = none ∧ z.blocked = false
          ∧ z.hold = none ∧ z.bayHold.any = false ∧ z.waiters = [])
    ∧ (∀ b : Fin 6, p.bayEntry b =
          { configured := false, station := 16 + b.val, mask := 0, axle := 0, front := .east, yLo := 0, yHi := 0, cab := 0,
            scale := false, scaleTolerance := 400, allowance := 20, settle := 50, rearm := 3000, flashOn := 500,
            flashOff := 500 }
        ∧ p.bay b = ⟨.empty, ⟨false, false, false⟩, false, 0, 0, 0, 0, none, none, none, none, none⟩
        ∧ dark p.lines.red[b] ∧ dark p.lines.green[b] ∧ unsampled p.lines.driver[b])
    ∧ p.bays.scan = none
    ∧ (∀ b : Fin 8, p.slots.blocks[b] = ⟨false, 0, 0, 0⟩ ∧ p.engine.routing[b] = 0)
    ∧ p.slots.slots = [] ∧ p.slots.counter = 1 ∧ p.slots.requests = []
    ∧ p.engine.queue = [] ∧ p.engine.answers = [] ∧ p.engine.search = none
    ∧ (∀ i : Fin 14, p.params.get i.val
        = #v[262144, 200, 5, 16, 200, 500, 300, 400, 300, 20, 900, 255, 0, 0][i])
    ∧ p.UrgentUnique ∧ p.StopLinesFollow ∧ p.SlotsSorted ∧ p.WithinCapacity

/-- Every step from any state keeps each law: at most one URGENT entry per crane (R170), stop outputs asserted exactly while their
latches hold a cause (R67), the slot table canonical (log 8), and the queues within their capacities (R163, R171 to R173, R183). -/
def Obligations.EveryStepKeepsTheLaws : Prop :=
  ∀ s t : State, step s = .next t →
    (s.part.UrgentUnique → t.part.UrgentUnique) ∧ (s.part.StopLinesFollow → t.part.StopLinesFollow)
      ∧ (s.part.SlotsSorted → t.part.SlotsSorted) ∧ (s.part.WithinCapacity → t.part.WithinCapacity)

/-- Every table but the calibration tables (which events of the hook change too), the parameters and the mode change only by their
own command, and the clock and the station by no command, the starts of the part aside (R2, R4, R23, R51, R97, R99, R127, R135,
R164, R178, R182, R187). A table of the slot map, the routing map and the parameters may also change when a command serves the
write that waits at the slot map (R118, R127), so their four clauses ask that none waits. -/
def Obligations.TablesChangeOnlyByTheirCommands : Prop :=
  ∀ (c : Instr) (s t : State), exec c s = .next t → startsPart c = false →
    (c ≠ .tableWriteCrane → t.part.tracker.entries = s.part.tracker.entries)
      ∧ (c ≠ .tableWriteZone → ∀ k, (t.part.zone k).entry = (s.part.zone k).entry)
      ∧ (c ≠ .tableWriteEntry → t.part.gate.entryPoints = s.part.gate.entryPoints)
      ∧ (c ≠ .tableWriteBlock → s.Quiet → t.part.slots.blocks = s.part.slots.blocks)
      ∧ (c ≠ .tableWriteSlotGeometry → s.Quiet →
          ∀ i, (t.part.slots.slot i).map Slot.geo = (s.part.slots.slot i).map Slot.geo)
      ∧ (c ≠ .tableWriteGroupMap → s.Quiet → t.part.engine.routing = s.part.engine.routing)
      ∧ (c ≠ .tableWriteBay → t.part.bays.entries = s.part.bays.entries)
      ∧ (c ≠ .tableWriteParameters → s.Quiet → t.part.params = s.part.params)
      ∧ (c ≠ .modeRun → c ≠ .modeMaintenance → c ≠ .restart → t.part.mgmt.mode = s.part.mgmt.mode)
      ∧ t.part.mgmt.clock = s.part.mgmt.clock ∧ t.part.link.station = s.part.link.station

/-- An entry of each of the nine tables, written as a TABLE_READ returns it, is read back from a TABLE_WRITE as the same entry, for every
entry in range (R178, R179; the layouts are the model's, log 7). -/
def Obligations.TableEntriesReadBack : Prop :=
  (∀ (i : Fin 4) (e : CraneEntry), e.inRange = true → e.yMax < 65536 → e.parkY < 65536 → e.tong < 65536 →
      readCraneEntry i.val e.bytes = some e)
    ∧ (∀ (i : Fin 32) (e : ZoneEntry), e.start ≤ 262143 → e.cap ≤ 4095 → readZoneEntry i.val e.bytes = some e)
    ∧ (∀ (i : Fin 4) (e : EntryPoint), e.x ≤ 262143 → e.y < 65536 → e.z ≤ 16383 → readEntryPoint i.val e.bytes = some e)
    ∧ (∀ (i : Fin 8) (b : Block), b.limit < 2 ^ 32 → b.cost < 256 → b.overhang ≤ 2000 →
      readBlock i.val b.bytes = some (i, b))
    ∧ (∀ i : Nat, i < 1536 → readGeometry (geometryBytes i none) = some (i, none))
    ∧ (∀ (i : Nat) (g : Geometry), i < 1536 → g.row ≤ 15 → g.tier.supports.1 < 1536 → g.tier.supports.2 < 1536 →
      g.x ≤ 262143 → g.y < 65536 → g.z ≤ 16383 → 1 ≤ g.maxDiameter → g.maxDiameter < 65536 → 1 ≤ g.maxWidth →
      g.maxWidth < 65536 → readGeometry (geometryBytes i (some g)) = some (i, some g))
    ∧ (∀ (p q : Part) (i : Fin 8), applyRouting i.val (p.entryBytes 6 i.val) q =
      { q with engine := { q.engine with routing := q.engine.routing.set i p.engine.routing[i] } })
    ∧ (∀ q : CalPoint, -8388608 ≤ q.count → q.count ≤ 8388607 → q.kg < 65536 → readCalPoint q.bytes = q)
    ∧ (∀ (i : Fin 6) (e : BayEntry), e.inRange = true → e.yHi < 65536 → e.scaleTolerance < 65536 →
      readBayEntry i.val e.bytes = some e)
    ∧ ∀ i v : Nat, paramInRange i v = true → readParam i (le 4 v) = some v

/-! ## Start and reset (R192) -/

/-- At the end of power-on, and at the release of the reset line, the station is 24 plus the straps, every unit has its power-on
value, and MODE_CHANGED (0, 0, cause 3 or 4) is the first frame of the part, in transmission at once. While the line is active every
unit is at its power-on value and every command but a start does nothing; a release without an active line does nothing (R164,
R169, R187, R192). The station shown while the line is active, a POWER_ON that comes in that time (log 3) and a release without an
active line (log 3, log 6) are the model's choices. -/
def Obligations.StartAndResetLine : Prop :=
  ∀ s : State,
    (∀ straps : BitVec 2,
      let station : Byte := BitVec.ofNat 8 (24 + straps.toNat)
      let notice := fun cause => ownFrame station 0 .notice 0 (Notice.payload ⟨.modeChanged, 0, 0, 0, 0, cause⟩)
      let started := fun cause => (Part.reset station).onLink fun l =>
        { l with seq := 1, sup := { Port.reset with tx := some (notice cause) } }
      exec (.powerOn straps) s = .next (s.withPart (started 3))
        ∧ (s.part.inReset = true → exec (.resetLineReleased straps) s = .next (s.withPart (started 4)))
        ∧ (s.part.inReset = false → exec (.resetLineReleased straps) s = .next s))
    ∧ exec .resetLineAsserted s = .next (s.withPart { Part.reset s.part.link.station with inReset := true })
    ∧ ∀ c : Instr, startsPart c = false → s.part.inReset = true → exec c s = .next s

/-! ## The yard link (08) -/

/-- A frame that arrives whole on an idle line is checked: a wrong check is counted, a good frame joins the receive FIFO, or is counted
as an overrun when four frames stand there; one that joins an empty crane-port FIFO is at its head, where its source is judged. Bytes
without a start mark are skipped. A gap above 50 µs inside a frame, and a length byte above 60, are counted as framing errors, after
which the receiver hunts again (R161 to R164, R174). That a gap right after the start mark counts too (log 29), and what a gap does
while the receiver hunts (log 6), are the model's choices. -/
def Obligations.ReceiverChecksFrames : Prop :=
  ∀ (s : State) (id : PortId), s.part.inReset = false →
    (∀ f : Frame, (s.part.port id).rx = .hunting → f.payload.length ≤ 60 →
      let p := s.part.onPort id fun r =>
        if crc f.covered ≠ f.check then { r with counts := { r.counts with checkErrors := bump r.counts.checkErrors } }
        else if r.fifo.length < 4 then
          { r with fifo := r.fifo ++ [f], counts := { r.counts with good := bump r.counts.good } }
        else { r with counts := { r.counts with good := bump r.counts.good, overruns := bump r.counts.overruns } }
      exec (.frameReceived id f.wire) s = .next (s.withPart
        (if id = .crane ∧ s.part.link.crane.fifo = [] ∧ crc f.covered = f.check then
          p.onLink fun l => { l with sender := some (s.part.senderNow f.src) }
        else p)))
    ∧ (∀ line : List Byte, (s.part.port id).rx = .hunting → (0xA7 : Byte) ∉ line →
      exec (.frameReceived id line) s = .next s)
    ∧ (∀ (bytes : List Byte) (next : Byte), (s.part.port id).rx = .inFrame bytes →
      exec (.interByteGap id next) s = .next (s.withPart (s.part.onPort id fun r =>
        { r with rx := if next = 0xA7 then .inFrame [] else .hunting,
                 counts := { r.counts with framing := bump r.counts.framing } })))
    ∧ (∀ next : Byte, (s.part.port id).rx = .hunting →
      exec (.interByteGap id next) s = .next (s.withPart (s.part.onPort id fun r =>
        { r with rx := if next = 0xA7 then .inFrame [] else .hunting })))
    ∧ ∀ (bytes : List Byte) (length : Byte), (s.part.port id).rx = .inFrame bytes → bytes.length = 4 → 60 < length.toNat →
      exec (.frameLengthAbove60 id length) s = .next (s.withPart (s.part.onPort id fun r =>
        { r with rx := .hunting, counts := { r.counts with framing := bump r.counts.framing } }))

/-- Where a frame at the head of either FIFO goes, by the lines of R165 and R166 in their order. The source of a crane-port frame is
judged when the frame reaches the head, as the frame before it leaves, and stands until the frame leaves; a source that is none of
a configured crane or bay unit is foreign (R164). A supervisor-port frame is judged by the crane table in force (log 37). -/
def Obligations.FramesAreClassified : Prop :=
  (∀ (p : Part) (station : Byte),
    (∀ c, p.senderNow station = .crane c ↔ p.craneAt station = some c)
      ∧ (∀ b, p.senderNow station = .bay b ↔ p.craneAt station = none ∧ p.bayAt station = some b)
      ∧ (p.senderNow station = .other ↔ p.craneAt station = none ∧ p.bayAt station = none)
      ∧ (∀ c : Fin 4, p.craneAt station = some c ↔ (p.entry c).configured = true ∧ station.toNat = c.val + 1)
      ∧ (p.bayAt station = none ↔ ∀ b : Fin 6, (p.bayEntry b).configured = true → station.toNat ≠ (p.bayEntry b).station))
  ∧ (∀ (p : Part) (f : Frame) (x : Sender), p.link.sender = some x → p.senderOf f = x)
  ∧ (∀ (p : Part) (f g : Frame) (rest : List Frame), p.link.crane.fifo = f :: g :: rest →
      p.dropCrane.link.crane.fifo = g :: rest ∧ p.dropCrane.link.sender = some (p.senderNow g.src))
  ∧ ∀ (p : Part) (f : Frame),
    (∀ k, p.classifySup f = .responder k ↔
      kindOf f.kind = some k ∧ k.isManagement = true ∧ f.dest = p.link.station ∧ f.src = 0)
    ∧ (p.classifySup f = .refused ↔
      if f.management then ¬ (f.dest = p.link.station ∧ f.src = 0) else f.dest = p.link.station)
    ∧ (∀ k c, p.classifySup f = .order k c ↔
      kindOf f.kind = some k ∧ k.isOrder = true ∧ f.dest ≠ p.link.station ∧ p.craneAt f.dest = some c)
    ∧ (p.classifySup f = .broadcastHalt ↔
      kindOf f.kind = some .halt ∧ f.dest = 31 ∧ f.dest ≠ p.link.station)
    ∧ (p.classifySup f = .forward ↔
      f.management = false ∧ f.dest ≠ p.link.station ∧ p.craneAt f.dest = none ∧ f.dest ≠ 0
        ∧ (f.dest = 31 → kindOf f.kind = none))
    ∧ (p.classifyCrane f = .refused ↔ f.management = true)
    ∧ (p.classifyCrane f = .conflict ↔ f.management = false ∧ (f.src = 0 ∨ f.src = 31 ∨ f.src = p.link.station))
    ∧ (∀ c, p.classifyCrane f = .position c ↔
      kindOf f.kind = some .position ∧ f.src ≠ 0 ∧ f.src ≠ 31 ∧ f.src ≠ p.link.station ∧ p.senderOf f = .crane c)
    ∧ (∀ c, p.classifyCrane f = .load c ↔
      kindOf f.kind = some .load ∧ f.src ≠ 0 ∧ f.src ≠ 31 ∧ f.src ≠ p.link.station ∧ p.senderOf f = .crane c)
    ∧ (∀ c d, p.classifyCrane f = .done c d ↔
      kindOf f.kind = some .done ∧ f.src ≠ 0 ∧ f.src ≠ 31 ∧ f.src ≠ p.link.station ∧ p.senderOf f = .crane c
        ∧ readDone f.payload = some d)
    ∧ (∀ b, p.classifyCrane f = .bayReport b ↔
      kindOf f.kind = some .bayReport ∧ f.src ≠ 0 ∧ f.src ≠ 31 ∧ f.src ≠ p.link.station ∧ p.senderOf f = .bay b)
    ∧ (p.classifyCrane f = .telemetry false ↔
      f.management = false ∧ f.src ≠ 0 ∧ f.src ≠ 31 ∧ f.src ≠ p.link.station ∧ p.senderOf f = .other)

/-- A frame that is for no unit leaves its FIFO: to NORMAL unchanged once it has room, or to TELEMETRY unchanged, which makes room by
R172, or discarded with its count; a frame for a full NORMAL stays (R163, R165, R166, R171, R172, R174). -/
def Obligations.FramesForNoUnitGoOn : Prop :=
  ∀ (s : State) (f : Frame), s.part.inReset = false →
    (s.part.supHead = some f →
      (s.part.classifySup f = .forward → s.part.link.normal.length < 16 →
        exec .supervisorFrameForward s = .next (s.withPart (s.part.dropSup.onLink fun l =>
          Link.startCrane { l with normal := l.normal ++ [⟨.transparent, f⟩] })))
      ∧ (s.part.classifySup f = .forward → 16 ≤ s.part.link.normal.length → exec .supervisorFrameForward s = .next s)
      ∧ (s.part.classifySup f = .refused → exec .supervisorFrameForward s = .next
          (s.withPart (s.part.dropSup.onPort .supervisor fun r => { r with counts := { r.counts with refused := bump r.counts.refused } })))
      ∧ (s.part.classifySup f = .unclaimed → exec .supervisorFrameForward s = .next
          (s.withPart (s.part.dropSup.onPort .supervisor fun r =>
            { r with counts := { r.counts with unclaimed := bump r.counts.unclaimed } }))))
    ∧ (s.part.craneHead = some f →
      (∀ (kept : List Frame) (n : Nat), s.part.link.MakesRoom f kept n →
        (s.part.classifyCrane f = .telemetry false → exec .craneFrameForward s = .next
            (s.withPart (s.part.dropCrane.onLink fun l => l.telemetryOf kept f n)))
        ∧ (s.part.classifyCrane f = .telemetry true → exec .craneFrameForward s = .next
            (s.withPart ((s.part.dropCrane.onPort .crane fun r =>
            { r with counts := { r.counts with unclaimed := bump r.counts.unclaimed } }).onLink fun l =>
              l.telemetryOf kept f n))))
      ∧ (s.part.classifyCrane f = .refused → exec .craneFrameForward s = .next
          (s.withPart (s.part.dropCrane.onPort .crane fun r => { r with counts := { r.counts with refused := bump r.counts.refused } })))
      ∧ (s.part.classifyCrane f = .conflict → exec .craneFrameForward s = .next
          (s.withPart (s.part.dropCrane.onPort .crane fun r =>
            { r with counts := { r.counts with conflicts := bump r.counts.conflicts } }))))

/-- The end of a transmission is counted, and the next frame goes out: on the supervisor port the head of REPLY before that of
TELEMETRY, on the crane port the head of URGENT before that of NORMAL (R169 to R173). -/
def Obligations.SentFrameIsFollowedByTheNext : Prop :=
  ∀ (s : State) (f : Frame), s.part.inReset = false →
    (s.part.link.sup.tx = some f → exec (.frameSent .supervisor) s = .next (s.withPart (s.part.onLink fun l =>
      { l with
        sup := { l.sup with tx := (l.reply ++ l.telemetry).head?,
                            counts := { l.sup.counts with sent := bump l.sup.counts.sent } },
        reply := l.reply.tail, telemetry := if l.reply = [] then l.telemetry.tail else l.telemetry })))
    ∧ (s.part.link.crane.tx = some f → exec (.frameSent .crane) s = .next (s.withPart (s.part.onLink fun l =>
      { l with
        crane := { l.crane with tx := (l.urgent.map (UrgentEntry.frame l.station) ++ l.normal.map NormalEntry.frame).head?,
                                counts := { l.crane.counts with sent := bump l.crane.counts.sent } },
        urgent := l.urgent.tail, normal := if l.urgent = [] then l.normal.tail else l.normal })))

/-- A free REPLY entry goes to the first producer in the arbiter's order that has a frame waiting; its oldest frame enters REPLY and
the producer moves to the end of the order (R173). -/
def Obligations.ReplyEntryGoesToTheNextProducer : Prop :=
  ∀ (s : State) (before after : List Producer) (d : Producer) (k : Kind) (payload : List Byte) (q : Part),
    s.part.inReset = false → s.part.link.reply.length < 16 → s.part.link.turn = before ++ d :: after →
    s.part.link.turn.Nodup → (∀ e ∈ before, (s.part.oldest e).isNone = true) → s.part.oldest d = some (k, payload, q) →
    exec .replyEntryGrant s = .next
        (s.withPart ({ q with link := { q.link.pushReply k payload with turn := before ++ after ++ [d] } }))

/-- A reply, a verdict, an answer of the engine and a notice enter REPLY at once when it has room and nothing of their producer waits
before them, each with the next sequence; otherwise they wait at their producer, and a full notice queue loses its oldest record
(R56, R126, R168, R173, R176, R177, R183, R184). -/
def Obligations.OwnFramesEnterReplyOrWait : Prop :=
  ∀ p : Part,
    let entered := fun (k : Kind) (payload : List Byte) => p.onLink fun l => Link.startSupervisor
      { l with reply := l.reply ++ [ownFrame l.station 0 k l.seq payload], seq := l.seq + 1 }
    (∀ (f : Frame) (a : Answer) (r : Option Reason) (data : List Byte), p.answerFrame f a r data =
      if p.link.reply.length < 16 then
        entered .reply ([f.kind, f.seq, BitVec.ofNat 8 a.code, BitVec.ofNat 8 (reasonCode r)] ++ data)
      else { p with mgmt := { p.mgmt with reply := some ⟨f.kind, f.seq, a, r, data⟩ } })
    ∧ (∀ v : Verdict, p.giveVerdict v =
      if p.gate.verdicts = [] ∧ p.link.reply.length < 16 then entered .verdict v.payload
      else { p with gate := { p.gate with verdicts := p.gate.verdicts ++ [v] } })
    ∧ (∀ a : ReplyBody, p.giveAnswer a =
      if p.engine.answers = [] ∧ p.link.reply.length < 16 then entered .reply a.payload
      else { p with engine := { p.engine with answers := p.engine.answers ++ [a] } })
    ∧ ∀ (k : NoticeKind) (subject v1 v2 v3 : Nat), p.notify k subject v1 v2 v3 =
      let n : Notice := ⟨k, p.mgmt.clock, subject, v1, v2, v3⟩
      if p.mgmt.notices = [] ∧ p.link.reply.length < 16 then entered .notice n.payload
      else if p.mgmt.notices.length < 32 then { p with mgmt := { p.mgmt with notices := p.mgmt.notices ++ [n] } }
      else { p with mgmt := { p.mgmt with notices := p.mgmt.notices.tail ++ [n], lost := bump p.mgmt.lost } }

/-- When NORMAL has an entry free, the pending command that has waited longest enters it with the next sequence, which becomes its
order's last command sequence; a final command then gives PASSED, and the MOVE_TO of a PARTIAL order gives no verdict. A LIFT_AT or
LOWER_AT, which is stated for a hook with no destination, first meets checks 7 to 10 of R55 again: when they hold it enters NORMAL and
the slot, the entry or the placement and the hook's source or destination follow it; when one fails the order ends REFUSED with that
reason and without commands in NORMAL. Check 7 or 8 failing leaves every slot and placement as it was; check 9 or 10 failing comes
after the transition and reverts it, so that a slot that was FREE is left RESERVED with number 0, a RESERVED or OCCUPIED one as it was,
a placement PLANNED, and the hook without source or destination (R55, R59, R61, R62, R64, R105, R107, R109, R111, R152, R168). That the
transition comes between check 8 and check 9 (log 16), and that CLAMPED was given when the MOVE_TO was prepared and not when it is
queued (R56, log 20), are the model's readings. -/
def Obligations.PendingCommandEntersNormal : Prop :=
  ∀ (s : State) (c : Fin 4) (rest : List (Fin 4)) (o : Order) (cmd : Command),
    s.part.inReset = false → s.Quiet → s.part.link.normal.length < 16 → s.part.gate.pendingTurn = c :: rest →
    s.part.activeOrder c = some o → o.pending = some cmd →
    let o' := { o with lastSeq := some s.part.link.seq, lastDone := false, pending := none }
    let p := { s.part.withCommand c o.tag o.speed cmd with
      gate := { s.part.gate with pendingTurn := rest, orders := s.part.gate.orders.set c (some o') } }
    let passed := fun q : Part => s.withPart (q.verdict c o.tag .passed none o.target.x o.permitted)
    let check := s.part.orderChecks c o.kind o.loc o.target
    (cmd.verb = .moveTo → exec .pendingCommandQueued s = .next
        (s.withPart (if o.state = .forwarded then p.verdict c o.tag .passed none o.target.x o.permitted else p)))
    ∧ (cmd.verb = .liftAt → o.state = .forwarded → (s.part.hook c).dest = none → check = none →
      (∀ (i : Nat) (g : Geometry) (coil : Coil) (placed : Time), o.loc = some (.slot i) →
        s.part.slots.slot i = some ⟨g, .occupied coil placed⟩ →
        exec .pendingCommandQueued s = .next (passed ({ p with
          slots := p.slots.setContents i (.outgoing coil placed c) }.setHook c
            { s.part.hook c with source := some ⟨.slot i, o.tag⟩ })))
      ∧ ∀ (e : Nat) (d : EntryData), o.loc = some (.entry e) → o.data = some d →
        exec .pendingCommandQueued s = .next (passed (p.setHook c
          { s.part.hook c with source := some ⟨.entry e d, o.tag⟩ })))
    ∧ (∀ coil : Coil, cmd.verb = .lowerAt → o.state = .forwarded → (s.part.hook c).dest = none →
      (s.part.hook c).coil = some coil → check = none →
      (∀ (i : Nat) (g : Geometry), o.loc = some (.slot i) →
        let incoming := fun r : Reservation => exec .pendingCommandQueued s = .next (passed ({ p with
          slots := p.slots.setContents i (.incoming r c coil.weight) }.setHook c
            { s.part.hook c with dest := some ⟨.slot i, o.target.x, o.target.y⟩ }))
        (∀ r : Reservation, s.part.slots.slot i = some ⟨g, .reserved r⟩ → incoming r)
        ∧ (s.part.slots.slot i = some ⟨g, .free⟩ → incoming ⟨0, coil.id, coil.weight, coil.diameter, coil.width, coil.group,
            s.part.mgmt.clock + BitVec.ofNat 32 (s.part.params.reservationTime * 1000), false⟩))
      ∧ ∀ (b : Fin 6) (k : Nat), o.loc = some (.bayPos b.val k) →
        exec .pendingCommandQueued s = .next (passed ((p.setBay b
          { s.part.bay b with plan := (s.part.bay b).plan.map fun pl => pl.setPlacement k (.incoming c) }).setHook c
          { s.part.hook c with dest := some ⟨.bayPos b k, o.target.x, o.target.y⟩ })))
    ∧ ∀ why : Reason, cmd.verb ≠ .moveTo → (s.part.hook c).dest = none → s.part.claim c = none →
      let refused := fun q : Part => exec .pendingCommandQueued s = .next (s.withPart ({ q with
        link := s.part.link.withoutCommands c
        gate := { s.part.gate with
          pendingTurn := rest.filter fun d => d != c
          orders := s.part.gate.orders.set c (some { o with state := .ended, pending := none }) } }.verdict
        c o.tag .refused (some why) o.target.x o.permitted))
      let unbound := s.part.setHook c { s.part.hook c with source := none }
      (s.part.placeChecks c o.kind o.loc = some why → (s.part.hook c).state ≠ .empty ∨ (s.part.hook c).source = none →
        refused s.part)
      ∧ (s.part.placeChecks c o.kind o.loc = none → s.part.targetChecks c o.kind o.target = some why → o.state = .forwarded →
        (cmd.verb = .liftAt → o.kind = .pick →
          (∀ (i : Nat) (g : Geometry) (coil : Coil) (placed : Time), o.loc = some (.slot i) →
            s.part.slots.slot i = some ⟨g, .occupied coil placed⟩ →
            refused { unbound with slots := s.part.slots.setContents i (.occupied coil placed) })
          ∧ ∀ (e : Nat) (d : EntryData), o.loc = some (.entry e) → o.data = some d → refused unbound)
        ∧ ∀ coil : Coil, cmd.verb = .lowerAt → o.kind = .place → (s.part.hook c).coil = some coil →
          (∀ (i : Nat) (g : Geometry), o.loc = some (.slot i) →
            let reserved := fun r : Reservation => refused { s.part with slots := s.part.slots.setContents i (.reserved r) }
            (∀ r : Reservation, s.part.slots.slot i = some ⟨g, .reserved r⟩ → r.lapsed = false → reserved r)
            ∧ (s.part.slots.slot i = some ⟨g, .free⟩ → reserved ⟨0, coil.id, coil.weight, coil.diameter, coil.width, coil.group,
                s.part.mgmt.clock + BitVec.ofNat 32 (s.part.params.reservationTime * 1000), false⟩))
          ∧ ∀ (b : Fin 6) (k : Nat), o.loc = some (.bayPos b.val k) →
            refused (s.part.setBay b
              { s.part.bay b with plan := (s.part.bay b).plan.map fun pl => pl.setPlacement k .planned }))

/-! ## Crane telegrams and bay reports (01, 04, 07) -/

/-- A POSITION is accepted from an UNSEEN or STALE crane, and from a TRACKED one when its sequence is newer. The crane is TRACKED, the
telegram is kept with its fields brought into range and the clamp count says so, the envelope is computed from it at age 0 (the
structure, the margin and, on the side of travel, the stopping distance), and no other crane's record changes (R5 to R11, R15, R18 to
R20). What it leads to, unit by unit: the ordering check of two TRACKED neighbours marks an overlap of their structures with its
notice, clears the mark once they stand clear, and stops both while they overlap, and no pair of a crane that is not configured is checked
(R1, R13, R14); a loaded hook in a cab area in force stops
the crane, and nothing else there does (R155, R156); and an envelope with a cover reaches the arbiter outside STARTUP, where the grant
first grows over every open zone up to the cover, or its crane is stopped with INTRUSION at the first zone that is not open, and is
then trimmed to the cover and what the active order keeps, never to nothing (R26, R31 to R35; that the stop comes before the release is
the model's choice, log 32). A stop request puts its cause into the latch of a configured crane, asserts its line and ends its order
(R66, R67). -/
def Obligations.PositionIsAccepted : Prop :=
  (∀ (s : State) (c : Fin 4) (f : Frame) (raw : RawPosition),
    s.TelegramFrom .position c f → s.Quiet → (s.part.entry c).configured = true → readPosition f.payload = some raw →
    ((s.part.record c).tracking = .tracked →
      ((s.part.record c).last.all fun old => 1 ≤ (f.seq - old.seq).toNat && (f.seq - old.seq).toNat ≤ 127) = true) →
    let e := s.part.entry c
    let top := s.part.params.length - 1
    let x := min raw.x top
    let vx := max (-4095) (min 4095 raw.vx)
    let vy := max (-4095) (min 4095 raw.vy)
    let gripper := if raw.gripper = 0 then Gripper.opened else .closed
    let drive := if raw.drive = 0 then Drive.ready else if raw.drive = 1 then .moving else if raw.drive = 2 then .manual
      else .fault
    let changed := top < raw.x ∨ 16383 < raw.z ∨ vx ≠ raw.vx ∨ vy ≠ raw.vy ∨ 1 < raw.gripper ∨ 3 < raw.drive
    let stop : Int := stoppingDistance vx e.reaction e.decel
    let lo := clampTo top (x - e.westExt - (if vx < 0 then stop else 0) - e.margin)
    let hi := clampTo top (x + e.eastExt + (if 0 < vx then stop else 0) + e.margin)
    ∃ t : State, exec .position s = .next t ∧ t.pending = s.pending
      ∧ t.part.record c =
        { s.part.record c with
          tracking := .tracked
          last := some ⟨f.seq, x, raw.y, min raw.z 16383, vx, vy, gripper, drive, raw.tag, s.part.mgmt.clock⟩
          clamp := if changed then bump (s.part.record c).clamp else (s.part.record c).clamp
          envelope := some ⟨lo, hi, if s.part.tiles then some (s.part.zoneOf lo, s.part.zoneOf hi) else none,
            s.part.mgmt.clock⟩ }
      ∧ (∀ d, d ≠ c → t.part.record d = s.part.record d) ∧ s.part.SameTables t.part)
  ∧ (∀ (p : Part) (c : Fin 4), (p.entry c).configured = false → p.checkOrdering c = p)
  ∧ (∀ (p : Part) (w e : Fin 4),
    let overlap : Int := ((p.craneX w : Int) + (p.entry w).eastExt) - ((p.craneX e : Int) - (p.entry e).westExt)
    let marked := fun on : Bool => { p with tracker := { p.tracker with crossed := p.tracker.crossed.set w on } }
    let stopped := fun q : Part => (q.requestStop w .ordering none).requestStop e .ordering none
    ((p.record w).tracking ≠ .tracked ∨ (p.record e).tracking ≠ .tracked → p.checkPair w e = p)
    ∧ ((p.record w).tracking = .tracked → (p.record e).tracking = .tracked →
      (overlap < 0 → p.tracker.crossed[w] = false → p.checkPair w e = p)
      ∧ (overlap < 0 → p.tracker.crossed[w] = true →
        p.checkPair w e = (marked false).notify .craneState w.val 5 e.val 0)
      ∧ (0 ≤ overlap → p.tracker.crossed[w] = true → p.checkPair w e = stopped p)
      ∧ (0 ≤ overlap → p.tracker.crossed[w] = false →
        p.checkPair w e = stopped ((marked true).notify .craneState w.val 4 e.val overlap.toNat))))
  ∧ (∀ (p : Part) (c : Fin 4),
    let inCab := ∃ b : Fin 6, (p.bayEntry b).configured = true ∧ (p.bay b).state ≠ .empty
      ∧ (p.bayEntry b).yLo ≤ p.craneY c ∧ p.craneY c ≤ (p.bayEntry b).yHi
      ∧ match (p.bayEntry b).front with
        | .east => (p.bayEntry b).axle ≤ p.craneX c ∧ p.craneX c ≤ (p.bayEntry b).axle + (p.bayEntry b).cab
        | .west => (p.bayEntry b).axle ≤ p.craneX c + (p.bayEntry b).cab ∧ p.craneX c ≤ (p.bayEntry b).axle
    let loaded := (p.hook c).state = .lifting ∨ (p.hook c).state = .weighed
    (loaded → inCab → p.checkCab c = p.requestStop c .cabArea none)
    ∧ (¬ (loaded ∧ inCab) → p.checkCab c = p))
  ∧ (∀ (p : Part) (c : Fin 4) (cause : StopCause) (bay : Option (Fin 6)),
    let q := p.requestStop c cause bay
    ((p.entry c).configured = false → q = p)
    ∧ ((p.entry c).configured = true → (p.latch c).causes.has cause = false →
      (q.latch c).causes = (p.latch c).causes.put cause true ∧ q.lines.stop[c].commanded = true ∧ q.activeOrder c = none
        ∧ q.tracker = p.tracker ∧ q.arbiter.runs = p.arbiter.runs ∧ ∀ d, d ≠ c → q.latch d = p.latch d))
  ∧ (∀ (p : Part) (c : Fin 4) (cover : Option (Nat × Nat)), p.mgmt.mode = .startup ∨ cover = none → p.takeEnvelope c cover = p)
  ∧ (∀ (p : Part) (c : Fin 4) (r : Run) (lo hi : Nat), p.mgmt.mode ≠ .startup → p.run c = some r → r.lo ≤ r.hi → r.hi < 32 →
    hi < 32 →
    ((∀ k : Fin 32, (lo ≤ k.val ∧ k.val < r.lo) ∨ (r.hi < k.val ∧ k.val ≤ hi) → p.Opens c p.arbiter.zones[k]) →
      p.takeEnvelope c (some (lo, hi)) = (p.regrant c r (min lo r.lo) (max r.hi hi)).release c (lo, hi))
    ∧ (∀ k : Fin 32, (k.val = r.hi + 1 ∧ k.val ≤ hi ∧ r.lo ≤ lo) ∨ (k.val + 1 = r.lo ∧ lo ≤ k.val ∧ hi ≤ r.hi) →
      ¬ p.Opens c p.arbiter.zones[k] →
      p.takeEnvelope c (some (lo, hi)) = (p.requestStop c .intrusion none).release c (lo, hi)))
  ∧ ∀ (p : Part) (c : Fin 4) (r : Run) (lo hi : Nat), p.run c = some r → r.lo ≤ r.hi → r.hi < 32 → lo ≤ hi →
    (∀ k : Fin 32, r.lo ≤ k.val → k.val ≤ r.hi → p.arbiter.zones[k].waiters = []) →
    (p.activeOrder c = none →
      (r.lo ≤ hi → lo ≤ r.hi → p.release c (lo, hi) = p.regrant c r (max lo r.lo) (min r.hi hi))
      ∧ (hi < r.lo → p.release c (lo, hi) = p.regrant c r r.lo r.lo)
      ∧ (r.hi < lo → p.release c (lo, hi) = p.regrant c r r.hi r.hi))
    ∧ ∀ o : Order, p.activeOrder c = some o →
      let (a, b) := p.zonesAt c o.permitted
      r.lo ≤ hi → lo ≤ r.hi → r.lo ≤ b → a ≤ r.hi → a ≤ b →
      p.release c (lo, hi) = p.regrant c r (max r.lo (min lo a)) (min r.hi (max hi b))

/-- A POSITION or LOAD that is late or malformed, and a BAY_REPORT that is, is counted and does nothing else; the two telegrams go on
to TELEMETRY, the report does not (R7, R78, R138, R166). That a malformed report leaves the scan as it is, and so does not use up the
first report of its dwell, is the model's choice (log 35). A telegram at the head of a crane or bay that is not configured any more is
taken in by no unit and not counted (R1, R78, R138; that it still goes where its judgment at the head sends it is the model's reading,
log 37). -/
def Obligations.LateAndMalformedTelegramsOnlyCount : Prop :=
  ∀ (s : State) (c : Fin 4) (b : Fin 6) (f : Frame), s.Quiet →
    ((s.part.entry c).configured = true →
      (s.TelegramFrom .position c f → readPosition f.payload = none →
        exec .position s = .next (s.withPart ((s.part.dropCrane.setRecord c
          { s.part.record c with malformed := bump (s.part.record c).malformed }).forwarded f)))
      ∧ (∀ (raw : RawPosition) (old : Telegram), s.TelegramFrom .position c f → readPosition f.payload = some raw →
        (s.part.record c).tracking = .tracked → (s.part.record c).last = some old →
        ((f.seq - old.seq).toNat = 0 ∨ 127 < (f.seq - old.seq).toNat) →
        exec .position s = .next (s.withPart ((s.part.dropCrane.setRecord c
          { s.part.record c with late := bump (s.part.record c).late }).forwarded f)))
      ∧ (s.TelegramFrom .load c f → readLoad f.payload = none →
        exec .load s = .next (s.withPart ((s.part.dropCrane.setHook c
          { s.part.hook c with malformed := bump (s.part.hook c).malformed }).forwarded f)))
      ∧ ∀ (samples : List Int) (old : Byte), s.TelegramFrom .load c f → readLoad f.payload = some samples →
        (s.part.record c).tracking = .tracked → (s.part.hook c).loadSeq = some old →
        ((f.seq - old).toNat = 0 ∨ 127 < (f.seq - old).toNat) →
        exec .load s = .next (s.withPart ((s.part.dropCrane.setHook c
          { s.part.hook c with late := bump (s.part.hook c).late }).forwarded f)))
    ∧ ((s.part.entry c).configured = false →
      (s.TelegramFrom .position c f → exec .position s = .next (s.withPart (s.part.dropCrane.forwarded f)))
      ∧ (s.TelegramFrom .load c f → exec .load s = .next (s.withPart (s.part.dropCrane.forwarded f))))
    ∧ (s.ReportFrom b f → (s.part.bayEntry b).configured = true →
      (readBayReport f.payload s.part.mgmt.clock = none →
        exec .bayReport s = .next (s.withPart (s.part.dropCrane.setBay b
          { s.part.bay b with malformed := bump (s.part.bay b).malformed })))
      ∧ ∀ rep : Report, readBayReport f.payload s.part.mgmt.clock = some rep →
        (s.part.bays.scan.any fun sc => sc.bay == b && !sc.taken) = false →
        exec .bayReport s = .next (s.withPart (s.part.dropCrane.setBay b
          { s.part.bay b with late := bump (s.part.bay b).late })))
    ∧ (s.ReportFrom b f → (s.part.bayEntry b).configured = false →
      exec .bayReport s = .next (s.withPart s.part.dropCrane))

/-- An accepted LOAD brings its samples into the crane's window one by one: while they leave it below its length the window holds the
samples it held and the new ones, with their number, their sum and the smallest and the largest of them, and nothing else changes but
the sequence. A sample that fills the window ends it and leaves it empty, so that it holds what came after the last one that filled it
(R78, R79). The end of a window is kept as the hook's last window result: its time, the mean to nearest with a tie away from zero, the
spread, the quiet mark, and with an active table the gross weight, the tare in use, the net of the two, never negative, the overrange
mark and the quality (R79 to R81). A quiet window of an EMPTY hook makes its gross the tracked tare, and the tare suspect mark says
whether that lies farther from the tong weight than the tare limit, with TARE_SUSPECT when the mark was clear (R82); a window of a
GRIPPED or LIFTING hook is judged by its net, and one of a WEIGHED hook sets the coil down when the gripper is open and the net below
the release threshold (R85, R86, R91); a window without a net changes no hook state (R80). -/
def Obligations.LoadEntersTheWindow : Prop :=
  (∀ (s : State) (c : Fin 4) (f : Frame) (samples : List Int),
    s.TelegramFrom .load c f → s.Quiet → (s.part.entry c).configured = true → readLoad f.payload = some samples →
    ((s.part.record c).tracking = .tracked →
      ((s.part.hook c).loadSeq.all fun old => 1 ≤ (f.seq - old).toNat && (f.seq - old).toNat ≤ 127) = true) →
    let a := (s.part.hook c).acc
    let window := s.part.params.window
    let taken := fun a' : Accumulator => s.part.dropCrane.setHook c { s.part.hook c with loadSeq := some f.seq, acc := a' }
    (∀ held : List Int, a.Holds held → held.length + samples.length < window →
      ∃ a' : Accumulator, a'.Holds (held ++ samples) ∧ exec .load s = .next (s.withPart ((taken a').forwarded f)))
    ∧ (∀ held : List Int, a.Holds held → held.length < window → held.length + samples.length = window →
      ∃ a' : Accumulator, a'.Holds (held ++ samples)
        ∧ exec .load s = .next (s.withPart (((taken a').endWindow c).forwarded f)))
    ∧ ∃ t : State, exec .load s = .next t ∧ t.pending = s.pending ∧ (t.part.hook c).loadSeq = some f.seq
      ∧ t.part.tracker.records = s.part.tracker.records ∧ s.part.SameTables t.part
      ∧ (1 ≤ window → a.number < window →
        (t.part.hook c).acc.number = (a.number + samples.length) % window
        ∧ ∀ held : List Int, a.Holds held → (t.part.hook c).acc.Holds
          ((held ++ samples).drop ((held.length + samples.length) / window * window))))
  ∧ ∀ (p : Part) (c : Fin 4) (samples : List Int), (p.hook c).acc.Holds samples → samples ≠ [] →
    samples.length = p.params.window →
    let h := p.hook c
    let tong := (p.entry c).tong
    ∃ (mean lo hi : Int) (weights : Option WindowWeights),
      (2 * (samples.sum - p.params.window * mean)).natAbs ≤ p.params.window
      ∧ ((2 * (samples.sum - p.params.window * mean)).natAbs = p.params.window →
        samples.sum.natAbs ≤ (p.params.window * mean).natAbs)
      ∧ lo ∈ samples ∧ hi ∈ samples ∧ (∀ v ∈ samples, lo ≤ v ∧ v ≤ hi)
      ∧ (h.active = none → weights = none)
      ∧ (∀ table : List CalPoint, h.active = some table →
        let gross := (convert mean table).1
        let above := (convert mean table).2
        let tare := if h.suspect then tong else h.tare.getD tong
        weights = some ⟨gross, tare, gross - tare, above,
          if above then .overrange else if h.suspect then .tareSuspect else .good⟩)
      ∧ let quiet := decide (hi - lo ≤ p.params.settleBand)
        let q := p.setHook c
          { h with lastWindow := some ⟨p.mgmt.clock, mean, hi - lo, quiet, weights⟩, acc := Accumulator.reset }
        (weights = none → p.endWindow c = q)
        ∧ ∀ w : WindowWeights, weights = some w →
          (h.state = .empty →
            let far := p.params.tareLimit < (w.gross - tong) + (tong - w.gross)
            let tared := fun on : Bool => q.setHook c { q.hook c with tare := some w.gross, suspect := on }
            (quiet = false → p.endWindow c = q)
            ∧ (quiet = true → ¬ far → p.endWindow c = tared false)
            ∧ (quiet = true → far → h.suspect = true → p.endWindow c = tared true)
            ∧ (quiet = true → far → h.suspect = false →
              p.endWindow c = (tared true).notify .tareSuspect c.val w.gross tong p.params.tareLimit))
          ∧ (h.state = .gripped ∨ h.state = .lifting → p.endWindow c = q.judgeLift c quiet w)
          ∧ (h.state = .weighed →
            (h.gripper = .opened → w.net < p.params.release → p.endWindow c = q.setDown c)
            ∧ (h.gripper = .closed ∨ p.params.release ≤ w.net → p.endWindow c = q))

/-- The hook states that the end of a window gives a GRIPPED or LIFTING hook: LIFTING from the engage threshold on, GRIPPED again
below it, an unquiet window starts the quiet run afresh, and the third quiet window in succession makes it WEIGHED with the net
and quality of that window (R85, R86, R88). The gripper of an accepted POSITION is kept, and grips an EMPTY hook when it closes; an
open one sets a WEIGHED hook down when its last net is below the release threshold, and brings a GRIPPED or LIFTING hook back to
EMPTY, where its source stays while the order that set it is active and otherwise goes, its slot OCCUPIED again (R84, R90, R91,
R107). -/
def Obligations.WindowsLiftAndWeigh : Prop :=
  (∀ (p : Part) (c : Fin 4) (quiet : Bool) (w : WindowWeights),
    let h := p.hook c
    (h.state = .gripped → w.net < p.params.engage → p.judgeLift c quiet w = p)
    ∧ (h.state = .gripped → p.params.engage ≤ w.net → p.judgeLift c quiet w = p.setHook c
      { h with
        state := .lifting, quiet := if quiet then 1 else 0,
        lift := some ⟨p.mgmt.clock, p.mgmt.clock + BitVec.ofNat 32 (p.params.weighTimeout * 1000)⟩ })
    ∧ (h.state = .lifting → w.net < p.params.engage → p.judgeLift c quiet w = p.setHook c
      { h with state := .gripped, quiet := 0, lift := none })
    ∧ (h.state = .lifting → p.params.engage ≤ w.net → p.judgeLift c false w = p.setHook c { h with quiet := 0 })
    ∧ (h.state = .lifting → p.params.engage ≤ w.net → h.quiet < 2 →
      p.judgeLift c true w = p.setHook c { h with quiet := h.quiet + 1 })
    ∧ (h.state = .lifting → p.params.engage ≤ w.net → 2 ≤ h.quiet →
      ∃ coil : Coil, (p.judgeLift c true w).hook c =
          { h with state := .weighed, lift := none, quiet := 0, coil := some coil, source := none }
        ∧ coil.weight = w.net ∧ coil.quality = w.quality
        ∧ (h.source = none → coil = ⟨none, w.net, w.quality, none, none, 255⟩)
        ∧ (∀ (i tag : Nat) (g : Geometry) (q : Coil) (placed : Time), h.source = some ⟨.slot i, tag⟩ →
          p.slots.slot i = some ⟨g, .outgoing q placed c⟩ →
          coil = { q with weight := w.net, quality := w.quality }
            ∧ (p.judgeLift c true w).slots.slot i = some ⟨g, .free⟩)))
  ∧ ∀ (p : Part) (c : Fin 4),
    let h := p.hook c
    let kept := fun g : Gripper => p.setHook c { h with gripper := g }
    let bare : Hook := { h with gripper := .opened, state := .empty, quiet := 0, lift := none }
    (h.state = .empty → p.takeGripper c .closed = p.setHook c { h with gripper := .closed, state := .gripped, quiet := 0 }
      ∧ p.takeGripper c .opened = kept .opened)
    ∧ (h.state ≠ .empty → p.takeGripper c .closed = kept .closed)
    ∧ (h.state = .weighed →
      (∀ n : Nat, h.lastNet = some n → n < p.params.release → p.takeGripper c .opened = (kept .opened).setDown c)
      ∧ ((∀ n : Nat, h.lastNet = some n → p.params.release ≤ n) → p.takeGripper c .opened = kept .opened))
    ∧ (h.state = .gripped ∨ h.state = .lifting → h.staged = none → p.engine.deferred[c] = none →
      (h.source = none → p.takeGripper c .opened = p.setHook c bare)
      ∧ ∀ (place : SourcePlace) (tag : Nat), h.source = some ⟨place, tag⟩ →
        ((∃ o, p.activeOrder c = some o ∧ o.tag = tag) → p.takeGripper c .opened = p.setHook c bare)
        ∧ ((∀ o, p.activeOrder c = some o → o.tag ≠ tag) →
          (∀ (e : Nat) (d : EntryData), place = .entry e d →
            p.takeGripper c .opened = p.setHook c { bare with source := none })
          ∧ ∀ (i : Nat) (g : Geometry) (coil : Coil) (placed : Time), place = .slot i →
            p.slots.slot i = some ⟨g, .outgoing coil placed c⟩ →
            p.takeGripper c .opened = { p.setHook c { bare with source := none } with
              slots := p.slots.setContents i (.occupied coil placed) }))

/-- A DONE for the current order: a FORWARDED order ends; a PARTIAL one keeps waiting for its span when its MOVE_TO is complete and no
refusal has clamped it, and ends otherwise; a DONE for anything else only goes on to TELEMETRY (R63, R64, R166). -/
def Obligations.DoneEndsTheOrder : Prop :=
  ∀ (s : State) (c : Fin 4) (f : Frame) (d : RawDone),
    s.TelegramFrom .done c f → s.Quiet → readDone f.payload = some d →
    (∀ o : Order, s.part.activeOrder c = some o → o.tag = d.tag → o.lastSeq = some d.seq →
      (o.state = .forwarded ∨ (o.state = .partly ∧ (d.complete = false ∨ o.short.isSome)) →
        ∃ t : State, exec .done s = .next t ∧ t.pending = s.pending
          ∧ t.part.order c = some { o with state := .ended, pending := none }
          ∧ (∀ e, e ≠ c → t.part.order e = s.part.order e) ∧ t.part.arbiter.runs = s.part.arbiter.runs
          ∧ t.part.gate.latches = s.part.gate.latches ∧ t.part.tracker.records = s.part.tracker.records
          ∧ s.part.SameTables t.part)
      ∧ (o.state = .partly → d.complete = true → o.short = none →
        exec .done s = .next (s.withPart ((s.part.dropCrane.setOrder c (some { o with lastDone := true })).forwarded f))))
    ∧ ((∀ o : Order, s.part.activeOrder c = some o → o.tag ≠ d.tag ∨ o.lastSeq ≠ some d.seq) →
      exec .done s = .next (s.withPart (s.part.dropCrane.forwarded f)))

/-- A report inside its bay's dwell, the first one, is taken: it is the bay's last report, the misses are 0, poll-STALE ends, the
scan knows it, no other bay's report or counts change, and the bay's state is the one its facts give (R138, R139, R144). A truck out
of position stops every crane whose hook is bound for the bay with TRUCK_LEFT; one that left takes the plan and what was known of it
with it; one with another id than the plan's is noted (R145, R146). The scale check that is pending meets the first stable report of a
truck in position: it is over, and a gross weight farther from the two axle loads than the tolerance gives DISCREPANCY (R154; that
this holds of a pending check whatever scale present has become is the model's choice, log 40). -/
def Obligations.BayReportIsTaken : Prop :=
  ∀ (s : State) (b : Fin 6) (f : Frame) (rep : Report) (sc : Scan),
    s.ReportFrom b f → s.Quiet → (s.part.bayEntry b).configured = true → readBayReport f.payload s.part.mgmt.clock = some rep →
    s.part.bays.scan = some sc → sc.bay = b → sc.taken = false →
    ∃ t : State, exec .bayReport s = .next t ∧ t.pending = s.pending
      ∧ (t.part.bay b).pollFacts =
        (false, 0, (s.part.bay b).totalMisses, (s.part.bay b).malformed, (s.part.bay b).late, some rep)
      ∧ (∀ d, d ≠ b → (t.part.bay d).pollFacts = (s.part.bay d).pollFacts)
      ∧ t.part.bays.scan = some { sc with taken := true }
      ∧ (t.part.bay b).state = (t.part.bay b).derived
      ∧ t.part.tracker.records = s.part.tracker.records ∧ s.part.SameTables t.part
      ∧ (rep.inPosition = false → ∀ d : Fin 4, (s.part.entry d).configured = true → s.part.boundFor d b = true →
        (t.part.latch d).causes.truckLeft = true)
      ∧ (rep.present = false → (t.part.bay b).state = .empty
        ∧ ((s.part.bay b).state ≠ .empty → (t.part.bay b).plan = none
          ∧ ((s.part.bay b).plan.isSome = true → (t.part.bay b).noted = none
            ∧ (t.part.bay b).causes.discrepancy = false ∧ (t.part.bay b).causes.stale = false)))
      ∧ ∀ pl : Plan, (s.part.bay b).plan = some pl → rep.present = true →
        (pl.truck = none ∨ pl.truck = rep.truck → (t.part.bay b).noted = none)
        ∧ (∀ id, rep.truck = some id → pl.truck.isSome = true → pl.truck ≠ some id → (t.part.bay b).noted = some id)
        ∧ (pl.scalePending = true → rep.inPosition = true → rep.stable = true →
          let load := (pl.front + pl.rear).toNat
          let apart := (rep.gross - load) + (load - rep.gross)
          (t.part.bay b).plan.map Plan.scalePending = some false
            ∧ ((t.part.bay b).causes.discrepancy = true ↔
              (s.part.bay b).causes.discrepancy = true ∨ (s.part.bayEntry b).scaleTolerance < apart))

/-! ## Orders (03) -/

/-- A GOTO or PARK that its crane may take whole at once: its record is FORWARDED with the target as permitted x, a MOVE_TO to the
target at safe height and travel speed enters NORMAL, and PASSED is given; nothing else changes (R53 to R56, R59, R61, R62). Any
order whose first zone beyond the grant cannot be granted at once: its claim waits there, or is refused when the zone is blocked or
forbids a loaded hook; with progress towards the target the order is PARTIAL with a MOVE_TO to the candidate and CLAMPED, naming the
refusal; without progress it is HELD while the claim waits, and ends REFUSED on a refusal (R28, R47, R58 to R60, R62; that the
refused claim's permitted x is the recorded x is the model's reading, log 17). -/
def Obligations.MoveOrderIsForwarded : Prop :=
  (∀ (s : State) (c : Fin 4) (f : Frame) (r : OrderRequest) (t : Point),
    let o := s.part.forwardedOrder c r t
    let p := (s.part.dropSup.withCommand c r.tag r.speed ⟨.moveTo, t.x, t.y, (s.part.entry c).zSafe, 0⟩).setOrder c (some o)
    (s.OrderFor .goto c f → readOrder .goto f.payload = some r → s.Granted c r t →
      exec .goto s = .next (s.withPart (p.verdict c r.tag .passed none t.x t.x)))
    ∧ (s.OrderFor .park c f → readOrder .park f.payload = some r → s.Granted c r t →
      exec .park s = .next (s.withPart (p.verdict c r.tag .passed none t.x t.x))))
  ∧ ∀ (s : State) (c : Fin 4) (f : Frame) (r : OrderRequest) (t : Point) (g : Run) (k : Fin 32), ∀ form ∈ orderForms,
    s.OrderFor form.2.1 c f → readOrder form.2.2 f.payload = some r → s.Accepts c r t → s.part.run c = some g →
    s.part.AsksFor c t.x g k.val → s.part.claim c = none → s.part.arbiter.zones[k].defined = true →
    let z := s.part.arbiter.zones[k]
    let admits := z.loaded = true ∨ (s.part.hook c).loaded = false
    let free := z.grant = none ∧ z.hold = none ∧ z.bayHold.any = false
    let o := s.part.newOrder c r t
    let move := fun x : Nat => (⟨.moveTo, x, if r.kind = .goto ∨ r.kind = .park then t.y else s.part.craneY c,
      (s.part.entry c).zSafe, 0⟩ : Command)
    let clamped := fun (q : Part) (x : Nat) (short : Option Reason) =>
      exec form.1 s = .next (s.withPart (((q.withCommand c r.tag r.speed (move x)).setOrder c
        (some { o with permitted := x, state := .partly, short := short, lastSeq := some s.part.link.seq })).verdict
          c r.tag .clamped short t.x x))
    let waiting := s.part.dropSup.joined c k o.cls
    (z.blocked = false → admits → ¬ free → s.part.facing c k = none →
      (∀ x : Nat, s.part.StepsTo c t.x g x → clamped waiting x none)
      ∧ ((∀ x : Nat, ¬ s.part.StepsTo c t.x g x) → exec form.1 s = .next (s.withPart
        ((waiting.setOrder c (some o)).verdict c r.tag .held none t.x (s.part.craneX c)))))
    ∧ ∀ why : Reason, (z.blocked = true ∧ why = .zoneBlocked) ∨ (z.blocked = false ∧ ¬ admits ∧ why = .zoneForbidsLoad) →
      (∀ x : Nat, s.part.StepsTo c t.x g x → clamped s.part.dropSup x (some why))
      ∧ ((∀ x : Nat, ¬ s.part.StepsTo c t.x g x) → (s.part.hook c).source = none →
        exec form.1 s = .next (s.withPart (({ s.part.dropSup with link := s.part.dropSup.link.withoutCommands c }.setOrder c
          (some { o with state := .ended, short := some why })).verdict c r.tag .refused (some why) t.x (s.part.craneX c))))

/-- A PICK that its crane may take whole at once, with no destination on the hook: the slot becomes OUTGOING, or the entry's coil data
join the order, the hook's source is set, a LIFT_AT enters NORMAL, and PASSED is given (R55, R56, R59, R61, R62, R83, R105). -/
def Obligations.PickOrderIsForwarded : Prop :=
  ∀ (s : State) (c : Fin 4) (f : Frame) (r : OrderRequest) (t : Point),
    s.OrderFor .pick c f → readOrder .pick f.payload = some r → s.Granted c r t → (s.part.hook c).dest = none →
    let o := s.part.forwardedOrder c r t
    let p := (s.part.dropSup.withCommand c r.tag r.speed ⟨.liftAt, t.x, t.y, t.z, (s.part.entry c).zSafe⟩).setOrder c (some o)
    (∀ (i : Nat) (g : Geometry) (coil : Coil) (placed : Time), r.loc = some (.slot i) →
      s.part.slots.slot i = some ⟨g, .occupied coil placed⟩ →
      exec .pick s = .next (s.withPart (({ p with slots := p.slots.setContents i (.outgoing coil placed c) }.setHook c
        { s.part.hook c with source := some ⟨.slot i, r.tag⟩ }).verdict c r.tag .passed none t.x t.x)))
    ∧ (∀ (e : Nat) (d : EntryData), r.loc = some (.entry e) → r.data = some d →
      exec .pick s = .next (s.withPart ((p.setHook c
        { s.part.hook c with source := some ⟨.entry e d, r.tag⟩ }).verdict c r.tag .passed none t.x t.x)))

/-- A PLACE that its crane may take whole at once, with no destination on the hook before: the slot becomes INCOMING with its own
reservation, or with one of number 0, or the placement becomes INCOMING; the hook's destination is set, a LOWER_AT enters NORMAL,
and PASSED is given (R55, R56, R59, R61, R62, R83, R109, R152). -/
def Obligations.PlaceOrderIsForwarded : Prop :=
  ∀ (s : State) (c : Fin 4) (f : Frame) (r : OrderRequest) (t : Point) (coil : Coil),
    s.OrderFor .place c f → readOrder .place f.payload = some r → s.Granted c r t → (s.part.hook c).dest = none →
    (s.part.hook c).coil = some coil →
    let o := s.part.forwardedOrder c r t
    let p := (s.part.dropSup.withCommand c r.tag r.speed ⟨.lowerAt, t.x, t.y, t.z, (s.part.entry c).zSafe⟩).setOrder c (some o)
    (∀ (i : Nat) (g : Geometry) (res : Reservation), r.loc = some (.slot i) → s.part.slots.slot i = some ⟨g, .reserved res⟩ →
      exec .place s = .next (s.withPart (({ p with slots := p.slots.setContents i (.incoming res c coil.weight) }.setHook c
        { s.part.hook c with dest := some ⟨.slot i, t.x, t.y⟩ }).verdict c r.tag .passed none t.x t.x)))
    ∧ (∀ (i : Nat) (g : Geometry), r.loc = some (.slot i) → s.part.slots.slot i = some ⟨g, .free⟩ →
      let res : Reservation := ⟨0, coil.id, coil.weight, coil.diameter, coil.width, coil.group,
        s.part.mgmt.clock + BitVec.ofNat 32 (s.part.params.reservationTime * 1000), false⟩
      exec .place s = .next (s.withPart (({ p with slots := p.slots.setContents i (.incoming res c coil.weight) }.setHook c
        { s.part.hook c with dest := some ⟨.slot i, t.x, t.y⟩ }).verdict c r.tag .passed none t.x t.x)))
    ∧ (∀ (b : Fin 6) (k : Nat), r.loc = some (.bayPos b.val k) →
      exec .place s = .next (s.withPart (((p.setBay b
        { s.part.bay b with plan := (s.part.bay b).plan.map fun pl => pl.setPlacement k (.incoming c) }).setHook c
        { s.part.hook c with dest := some ⟨.bayPos b k, t.x, t.y⟩ }).verdict c r.tag .passed none t.x t.x)))

/-- An order that fails a check only gives its verdict: MALFORMED, WRONG_MODE, CRANE_UNTRACKED, STOP_LATCHED, CRANE_MANUAL,
CRANE_FAULT, BUSY while its lift or set-down is under way, BAD_LOCATION, and of an order that resolved HOOK_STATE, the reason of
the location's owner, CAB_AREA, ZONE_HELD, and BUSY with NORMAL full, the first that holds (R52, R55 to R57, R155). The permitted x
in a verdict on an order that resolved is a free value (log 5). -/
def Obligations.OrdersAreRefusedInOrder : Prop :=
  ∀ (s : State) (c : Fin 4) (f : Frame), ∀ form ∈ orderForms, s.OrderFor form.2.1 c f → s.Quiet →
    let gives := fun (tag : Nat) (kind : VerdictKind) (why : Option Reason) =>
      exec form.1 s = .next (s.withPart (s.part.dropSup.verdict c tag kind why 0 0))
    let drive := (s.part.record c).last.map Telegram.drive
    (readOrder form.2.2 f.payload = none → gives (orderTag f.payload) .refused (some .malformed))
    ∧ ∀ r : OrderRequest, readOrder form.2.2 f.payload = some r →
      (s.part.mgmt.mode ≠ .run → gives r.tag .refused (some .wrongMode))
      ∧ (s.part.mgmt.mode = .run →
        ((s.part.record c).tracking ≠ .tracked → gives r.tag .refused (some .craneUntracked))
        ∧ ((s.part.record c).tracking = .tracked →
          ((s.part.latch c).causes.any = true → gives r.tag .refused (some .stopLatched))
          ∧ ((s.part.latch c).causes.any = false →
            (drive = some .manual → gives r.tag .refused (some .craneManual))
            ∧ (drive = some .fault → gives r.tag .refused (some .craneFault))
            ∧ (drive ≠ some .manual → drive ≠ some .fault →
              (s.part.underWay c = true → gives r.tag .busy none)
              ∧ (s.part.underWay c = false →
                (s.part.resolve c r.kind r.loc = none → gives r.tag .refused (some .badLocation))
                ∧ ∀ t : Point, s.part.resolve c r.kind r.loc = some t →
                  let answers := fun (kind : VerdictKind) (why : Option Reason) =>
                    exec form.1 s = .next (s.withPart ({ s.part.dropSup with free := s.part.free + 1 }.verdict c r.tag kind why
                      t.x (Config.permittedOfRefused s.part.free).toNat))
                  let hook := s.part.hook c
                  let fits := (r.kind = .pick → hook.state = .empty) ∧ (r.kind = .place → hook.state = .weighed)
                  let inCab := hook.loaded = true ∧ s.part.inCabArea t.x t.y = true
                  let held := (r.kind = .pick ∨ r.kind = .place) ∧ (s.part.zone (s.part.zoneOf t.x)).held = true
                  (¬ fits → answers .refused (some .hookState))
                  ∧ (fits → (∀ why : Reason, s.part.ownerCheck c r.kind r.loc = some why → answers .refused (some why))
                    ∧ (s.part.ownerCheck c r.kind r.loc = none →
                      (inCab → answers .refused (some .cabArea))
                      ∧ (¬ inCab → (held → answers .refused (some .zoneHeld))
                        ∧ (¬ held → 16 ≤ s.part.link.normal.length → answers .busy none)))))))))

/-- A HALT for a crane in any mode ends its active order, and with no active order before it puts the HALT into URGENT and gives
PASSED. A broadcast HALT ends the active order of every configured crane; with none active it removes their queued commands and
enters NORMAL at the head, where a full queue loses its tail, counted (R64, R65, R170, R171, R174); that its payload is neither
checked nor read (log 21), and that the lost tail counts on the crane port (log 41), are the model's readings. -/
def Obligations.HaltEndsOrders : Prop :=
  ∀ (s : State) (f : Frame), s.Quiet →
    (∀ (c : Fin 4) (tag : Nat), s.OrderFor .halt c f → readHalt f.payload = some tag →
      (s.part.activeOrder c = none → exec .halt s = .next (s.withPart ((s.part.dropSup.onLink fun l =>
        if (l.urgent.any fun u => u.crane == c) = true then
          { l with urgent := l.urgent.map fun u =>
              match u.body with
              | .halt old => { u with body := .halt (if u.crane = c then tag else old) }
              | .stop _ => u }
        else Link.startCrane { l with urgent := l.urgent ++ [⟨c, l.seq, .halt tag⟩], seq := l.seq + 1 }).verdict
          c tag .passed none 0 0)))
      ∧ ∃ t : State, exec .halt s = .next t ∧ t.pending = s.pending ∧ t.part.activeOrder c = none
        ∧ (∀ d, d ≠ c → t.part.order d = s.part.order d) ∧ t.part.arbiter.runs = s.part.arbiter.runs
        ∧ t.part.gate.latches = s.part.gate.latches ∧ t.part.tracker.records = s.part.tracker.records
        ∧ s.part.SameTables t.part)
    ∧ (s.part.inReset = false → s.part.supHead = some f → s.part.classifySup f = .broadcastHalt →
      s.part.gate.verdicts = [] →
      ((∀ c, s.part.activeOrder c = none) → exec .broadcastHalt s = .next (s.withPart (s.part.dropSup.onLink fun l =>
        let left := l.normal.filter fun e => s.part.configured.all fun c => !e.sort.commands c
        Link.startCrane
          { l with
            normal := ⟨.broadcastHalt, f⟩ :: (if left.length < 16 then left else left.dropLast),
            crane := if left.length < 16 then l.crane else
              { l.crane with counts := { l.crane.counts with forwardDiscards := bump l.crane.counts.forwardDiscards } } })))
      ∧ ∃ t : State, exec .broadcastHalt s = .next t ∧ t.pending = s.pending
        ∧ (∀ c, (s.part.entry c).configured = true → t.part.activeOrder c = none)
        ∧ (∀ c, (s.part.entry c).configured = false → t.part.order c = s.part.order c)
        ∧ t.part.arbiter.runs = s.part.arbiter.runs ∧ t.part.gate.latches = s.part.gate.latches ∧ s.part.SameTables t.part)

/-! ## Expiries and the filter (01 to 07) -/

/-- A TRACKED crane whose stale limit has passed is STALE and counted, its record otherwise kept; when it is configured and had no
such cause, STALE joins its latch, its stop line is asserted and its active order ends; every grant stays (R12, R33, R66, R67). -/
def Obligations.StaleCraneIsStopped : Prop :=
  ∀ (s : State) (c : Fin 4) (last : Telegram),
    s.part.inReset = false → s.Quiet → (s.part.record c).tracking = .tracked → (s.part.record c).last = some last →
    passed s.part.mgmt.clock (last.arrival + BitVec.ofNat 32 s.part.params.staleLimit) = true →
    ∃ t : State, exec (.staleExpiry c) s = .next t ∧ t.pending = s.pending
      ∧ t.part.record c = { s.part.record c with tracking := .stale, staleCount := bump (s.part.record c).staleCount }
      ∧ (∀ d, d ≠ c → t.part.record d = s.part.record d ∧ t.part.latch d = s.part.latch d ∧ t.part.order d = s.part.order d)
      ∧ ((s.part.entry c).configured = true → (s.part.latch c).causes.stale = false →
        t.part.latch c = { s.part.latch c with causes := { (s.part.latch c).causes with stale := true } }
          ∧ t.part.lines.stop[c].commanded = true ∧ t.part.activeOrder c = none)
      ∧ t.part.arbiter.runs = s.part.arbiter.runs ∧ s.part.SameTables t.part

/-- A timed management part that has passed leaves its zone, HOLD_EXPIRED says whether a bay part remains, and the zone is handed on;
a HOLD sets the part on every zone of its mask; an UNHOLD removes it, handing a zone on; BLOCK, for zones neither granted nor waited
for, and UNBLOCK set and clear the blocked mark; nothing else of any zone changes (R25, R40 to R42, R45, R46). -/
def Obligations.ZoneHoldsAndBlocks : Prop :=
  ∀ (s : State) (f : Frame) (m : ZoneMask), s.Quiet → (∀ k : Fin 32, m.getLsbD k.val = true → s.part.arbiter.zones[k].defined = true) →
    let onMask := fun (change : Zone → Zone) => (({ s.part.dropSup with arbiter := { s.part.arbiter with
        zones := Vector.ofFn fun k : Fin 32 =>
          if m.getLsbD k.val then change s.part.arbiter.zones[k] else s.part.arbiter.zones[k] } } : Part).ok f [])
    (∀ (k : Fin 32) (till : Time), s.part.inReset = false → s.part.arbiter.zones[k].hold = some (.till till) →
      passed s.part.mgmt.clock till = true →
      exec (.holdExpiry k) s = .next (s.withPart
        (((s.part.setZone k { s.part.arbiter.zones[k] with hold := none }).notify .holdExpired k till.toNat
          (if s.part.arbiter.zones[k].bayHold.any then 1 else 0) 0).handOn k)))
    ∧ (∀ seconds : Nat, s.Request .hold f → readHold f.payload = some (m, seconds) →
      exec .hold s = .next (s.withPart (onMask fun z =>
        { z with hold := some (if seconds = 0 then .indefinite
            else .till (s.part.mgmt.clock + BitVec.ofNat 32 (seconds * 1000))) })))
    ∧ (s.Request .unhold f → readMask f.payload = some m →
      (∀ k : Fin 32, m.getLsbD k.val = true → s.part.arbiter.zones[k].waiters = []) →
      exec .unhold s = .next (s.withPart (onMask fun z => { z with hold := none })))
    ∧ (∀ k : Fin 32, s.Request .unhold f → readMask f.payload = some m → maskZones m = [k.val] →
      s.part.arbiter.zones[k].hold.isSome = true →
      exec .unhold s = .next (s.withPart
        (((s.part.dropSup.setZone k { s.part.arbiter.zones[k] with hold := none }).handOn k).ok f [])))
    ∧ (s.Request .block f → readMask f.payload = some m →
      (∀ k : Fin 32, m.getLsbD k.val = true → s.part.arbiter.zones[k].grant = none ∧ s.part.arbiter.zones[k].waiters = []) →
      exec .block s = .next (s.withPart (onMask fun z => { z with blocked := true })))
    ∧ (s.Request .unblock f → readMask f.payload = some m →
      exec .unblock s = .next (s.withPart (onMask fun z => { z with blocked := false })))

/-- A reservation whose expiry has passed: a RESERVED slot becomes FREE with RESERVATION_EXPIRED, an INCOMING one keeps its coil and
its reservation is marked lapsed; behind waiting requests the expiry joins them, and it does the same when it is served (R112,
R114, R118). -/
def Obligations.ReservationsExpire : Prop :=
  ∀ (s : State) (i : Nat) (g : Geometry) (r : Reservation), s.part.inReset = false → passed s.part.mgmt.clock r.expiry = true →
    let freed := fun p : Part => ({ p with slots := p.slots.setContents i .free }).notify .reservationExpired i r.number
      (r.id.elim 0 BitVec.toNat) r.expiry.toNat
    let lapsed := fun (p : Part) (c : Fin 4) (w : Nat) =>
      ({ p with slots := p.slots.setContents i (.incoming { r with lapsed := true } c w) } : Part)
    (s.part.slots.slot i = some ⟨g, .reserved r⟩ → s.Quiet →
      exec (.reservationExpiry i) s = .next (s.withPart (freed s.part)))
    ∧ (∀ (c : Fin 4) (w : Nat), s.part.slots.slot i = some ⟨g, .incoming r c w⟩ → r.lapsed = false → s.Quiet →
      exec (.reservationExpiry i) s = .next (s.withPart (lapsed s.part c w)))
    ∧ (s.part.slots.slot i = some ⟨g, .reserved r⟩ → s.part.slots.requests ≠ [] → .expiry i ∉ s.part.slots.requests →
      exec (.reservationExpiry i) s = .next (s.withPart
        { s.part with slots := { s.part.slots with requests := s.part.slots.requests ++ [.expiry i] } }))
    ∧ (∀ rest : List SlotTask, s.part.slots.requests = .expiry i :: rest → s.part.slots.slot i = some ⟨g, .reserved r⟩ →
      exec .slotMapRequestServed s = .next (s.withPart
        (freed { s.part with slots := { s.part.slots with requests := rest } })))

/-- A LIFTING hook whose weigh expiry has passed is WEIGHED with the net of its last window and quality UNSETTLED, counted; every other
hook stays as it is (R87, R88). -/
def Obligations.WeighTimeoutWeighsUnsettled : Prop :=
  ∀ (s : State) (c : Fin 4) (l : Lift) (w : WindowResult) (ww : WindowWeights),
    s.part.inReset = false → s.Quiet → (s.part.hook c).state = .lifting → (s.part.hook c).lift = some l →
    passed s.part.mgmt.clock l.expiry = true → (s.part.hook c).lastWindow = some w → w.weights = some ww →
    ∃ (t : State) (coil : Coil), exec (.weighExpiry c) s = .next t ∧ t.pending = s.pending
      ∧ t.part.hook c = { s.part.hook c with
          state := .weighed, lift := none, quiet := 0, coil := some coil, source := none,
          unsettled := bump (s.part.hook c).unsettled }
      ∧ coil.weight = ww.net ∧ coil.quality = .unsettled
      ∧ ((s.part.hook c).source = none → coil = ⟨none, ww.net, .unsettled, none, none, 255⟩)
      ∧ (∀ d, d ≠ c → t.part.hook d = s.part.hook d) ∧ t.part.tracker.records = s.part.tracker.records
      ∧ s.part.SameTables t.part

/-- A bay's re-arm wait that has passed, with its input still safe: DRIVER and the bay's part of the holds go, for zones without
waiters, and the state is derived. A flash timer that has passed turns the red command over and starts again with the on or the off
time (R43, R144, R148, R157). -/
def Obligations.BayTimersExpire : Prop :=
  ∀ (s : State) (b : Fin 6) (at_ : Time), s.part.inReset = false → s.Quiet → passed s.part.mgmt.clock at_ = true →
    ((s.part.bay b).rearmAt = some at_ → s.part.lines.driver[b].accepted = .active →
      (∀ k : Fin 32, (s.part.bayEntry b).mask.getLsbD k.val = true → s.part.arbiter.zones[k].waiters = []) →
      ∃ t : State, exec (.reArmExpiry b) s = .next t ∧ t.pending = s.pending
        ∧ (t.part.bay b).rearmAt = none
        ∧ (t.part.bay b).causes = { (s.part.bay b).causes with driver := false }
        ∧ (t.part.bay b).state = (t.part.bay b).derived ∧ (t.part.bay b).plan = (s.part.bay b).plan
        ∧ (t.part.bay b).pollFacts = (s.part.bay b).pollFacts
        ∧ (∀ d, d ≠ b → t.part.bay d = s.part.bay d)
        ∧ t.part.arbiter.zones = (Vector.ofFn fun k : Fin 32 =>
          if (s.part.bayEntry b).mask.getLsbD k.val then
            { s.part.arbiter.zones[k] with bayHold := s.part.arbiter.zones[k].bayHold.set b false }
          else s.part.arbiter.zones[k])
        ∧ t.part.gate = s.part.gate ∧ t.part.hooks = s.part.hooks ∧ s.part.SameTables t.part)
    ∧ ((s.part.bay b).flashAt = some at_ →
      let red := s.part.lines.red[b]
      let turned : OutLine := { red with commanded := !red.commanded, delay := some 0 }
      let wait := if red.commanded then (s.part.bayEntry b).flashOff else (s.part.bayEntry b).flashOn
      exec (.flashTimerExpiry b) s = .next (s.withPart
        ({ s.part with lines := { s.part.lines with red := s.part.lines.red.set b turned } }.setBay b
          { s.part.bay b with flashAt := some (s.part.mgmt.clock + BitVec.ofNat 32 wait) })))

/-- A dwell that has passed: the poll of the next configured bay is queued, or skipped and counted when NORMAL is full, and its dwell
starts, the larger of reply allowance and settle time. A bay whose poll brought no report in the dwell has missed: its misses rise
to at most 3 and its total rises, and at the third it is poll-STALE (R137, R139, R171). That the total rises too while the bay is
poll-STALE (log 18), and that a skip counts on the crane port (log 41), are the model's readings. -/
def Obligations.DwellEndPollsTheNextBay : Prop :=
  ∀ (s : State) (sc : Scan) (next : Fin 6), s.part.inReset = false → s.Quiet → s.part.bays.scan = some sc →
    passed s.part.mgmt.clock sc.dwellEnd = true → s.part.nextBay sc.bay = some next →
    let e := s.part.bayEntry next
    let dwellEnd := s.part.mgmt.clock + BitVec.ofNat 32 (max e.allowance e.settle)
    let polled := fun p : Part =>
      if p.link.normal.length < 16 then
        { p.onLink (Link.pushNormal (.poll next) (BitVec.ofNat 8 e.station) .bayPoll
            [BitVec.ofNat 8 next.val, BitVec.ofNat 8 (p.bay next).state.code, BitVec.ofNat 8 (p.bay next).causes.flags]) with
          bays := { p.bays with scan := some ⟨next, dwellEnd, false, false⟩ } }
      else
        { p.onLink (fun l => { l with crane := { l.crane with
            counts := { l.crane.counts with pollSkips := bump l.crane.counts.pollSkips } } }) with
          bays := { p.bays with scan := some ⟨next, dwellEnd, false, true⟩ } }
    let r := s.part.bay sc.bay
    (sc.taken = true → sc.skipped = false → exec .dwellEnd s = .next (s.withPart (polled s.part)))
    ∧ (sc.taken = false ∨ sc.skipped = true → r.misses < 2 ∨ r.pollStale = true →
      exec .dwellEnd s = .next (s.withPart (polled (s.part.setBay sc.bay
        { r with misses := min 3 (r.misses + 1), totalMisses := bump r.totalMisses }))))
    ∧ (sc.taken = false ∨ sc.skipped = true → 2 ≤ r.misses → r.pollStale = false →
      ∃ t : State, exec .dwellEnd s = .next t ∧ t.pending = s.pending
        ∧ (t.part.bay sc.bay).pollFacts = (true, 3, bump r.totalMisses, r.malformed, r.late, r.last)
        ∧ (t.part.bay sc.bay).causes.stale = r.plan.isSome
        ∧ (t.part.bays.scan.map Scan.bay = some next) ∧ s.part.SameTables t.part)

/-- A sample that is due, with nothing left to be done from the last one: every input's run count says for how many samples, up to 3,
its level has been the same, a check delay in progress counts the sample, and the next sample falls one interval after the present
counter (R71, R72, R182). What is still to be done from the last sample is done first (log 4), and a sample that is not due does
nothing (log 6): both are the model's choices. -/
def Obligations.FilterTakesSamples : Prop :=
  ∀ (s : State) (levels : Samples), s.part.inReset = false →
    let sampled := fun (i : InputFilter) (level : Bool) =>
      ({ i with last := level, run := if level = i.last then min 3 (i.run + 1) else 1 } : InputFilter)
    let output := fun (o : OutLine) (level : Bool) =>
      ({ o with input := sampled o.input level, delay := o.delay.map fun n => min 4 (n + 1) } : OutLine)
    (passed s.part.mgmt.clock s.part.lines.nextSample = true → s.Quiet →
      (∀ n ∈ lineList, s.part.levelDue n = false ∧ s.part.delayDue n = false) →
      ∃ lines : Lines, exec (.filterSample levels) s = .next (s.withPart { s.part with lines := lines })
        ∧ (∀ c : Fin 4, lines.stop[c] = output s.part.lines.stop[c] levels.stop[c])
        ∧ (∀ b : Fin 6, lines.red[b] = output s.part.lines.red[b] levels.red[b]
          ∧ lines.green[b] = output s.part.lines.green[b] levels.green[b]
          ∧ lines.driver[b] = sampled s.part.lines.driver[b] levels.driver[b])
        ∧ lines.nextSample = s.part.mgmt.clock + BitVec.ofNat 32 s.part.params.sampleInterval)
    ∧ (passed s.part.mgmt.clock s.part.lines.nextSample = false → exec (.filterSample levels) s = .next s)

/-- A readback level that is due is accepted, and compared at once when no check delay runs; a check delay that has taken four samples
ends with the comparison. The comparison clears the fault mark when the levels agree, and sets it with LINE_FAULT when they do not
and it was clear; it waits for a first accepted level and for a configured crane or bay (R71, R72). A CHECK_DELAY_END with no check
delay that has ended changes nothing, the model's choice (log 6). -/
def Obligations.ReadbacksAreCompared : Prop :=
  ∀ (s : State) (n : Nat) (o : OutLine), s.part.inReset = false → s.Quiet → s.part.lines.output n = some o →
    let compared := fun o' : OutLine =>
      let p := { s.part with lines := s.part.lines.setOutput n o' }
      if s.part.lineConfigured n = false ∨ o'.input.accepted = .unknown then p
      else if o'.input.accepted = (if o'.commanded then .active else .inactive) then
        { p with lines := s.part.lines.setOutput n { o' with fault := false } }
      else if o'.fault then p
      else { p with lines := s.part.lines.setOutput n { o' with fault := true } }.notify .lineFault n
        (if o'.commanded then 1 else 0) o'.input.accepted.code 0
    let accepted := { o with input := { o.input with accepted := if o.input.last then .active else .inactive } }
    (o.input.run = 3 → o.input.accepted ≠ (if o.input.last then .active else .inactive) →
      exec (.inputLevelAccepted n) s = .next (s.withPart
        (if o.delay = none then compared accepted else { s.part with lines := s.part.lines.setOutput n accepted })))
    ∧ (o.delay = some 4 → exec (.checkDelayEnd n) s = .next (s.withPart (compared { o with delay := none })))
    ∧ (o.delay ≠ some 4 → exec (.checkDelayEnd n) s = .next s)

/-- A driver-safe input that returns to the safe level starts the re-arm wait of a bay that has DRIVER. One that leaves it clears the
wait of an EMPTY or ARRIVED bay, and pauses a bay in any other state: DRIVER joins its causes, every zone of its mask is held for it,
and its state is derived anew (R43, R144, R147, R148). -/
def Obligations.DriverInputPausesTheBay : Prop :=
  ∀ (s : State) (b : Fin 6), s.part.inReset = false → s.Quiet → (s.part.bayEntry b).configured = true →
    let i := s.part.lines.driver[b]
    let i' : InputFilter := { i with accepted := if i.last then .active else .inactive }
    let p := { s.part with lines := { s.part.lines with driver := s.part.lines.driver.set b i' } }
    i.run = 3 →
    (i.last = true → i.accepted ≠ .active → (s.part.bay b).causes.driver = true →
      exec (.inputLevelAccepted (24 + b.val)) s = .next (s.withPart (p.setBay b
        { s.part.bay b with
          rearmAt := some (s.part.mgmt.clock + BitVec.ofNat 32 (s.part.bayEntry b).rearm) })))
    ∧ (i.last = true → i.accepted ≠ .active → (s.part.bay b).causes.driver = false →
      exec (.inputLevelAccepted (24 + b.val)) s = .next (s.withPart p))
    ∧ (i.last = false → i.accepted = .active → (s.part.bay b).state = .empty ∨ (s.part.bay b).state = .arrived →
      exec (.inputLevelAccepted (24 + b.val)) s = .next (s.withPart (p.setBay b { s.part.bay b with rearmAt := none })))
    ∧ (i.last = false → i.accepted = .active → (s.part.bay b).state ≠ .empty → (s.part.bay b).state ≠ .arrived →
      ∃ t : State, exec (.inputLevelAccepted (24 + b.val)) s = .next t ∧ t.pending = s.pending
        ∧ (t.part.bay b).causes = { (s.part.bay b).causes with driver := true } ∧ (t.part.bay b).rearmAt = none
        ∧ (t.part.bay b).state = (t.part.bay b).derived ∧ (t.part.bay b).pollFacts = (s.part.bay b).pollFacts
        ∧ (∀ k : Fin 32, (s.part.bayEntry b).mask.getLsbD k.val = true → s.part.arbiter.zones[k].defined = true →
          t.part.arbiter.zones[k].bayHold[b] = true)
        ∧ t.part.tracker.records = s.part.tracker.records ∧ s.part.SameTables t.part)

/-! ## Allocation (06) -/

/-- An ALLOCATE is judged when the engine takes it, at once or, while an answer waits, once the answer list is empty. A coil id absent, a
crane named that is not configured, a size of 0, a source x above 262,143 or FROM_CRANE without a crane is BAD_VALUE; no weight and no
crane WEIGHT_UNPROVEN; FROM_CRANE of a crane without an accepted POSITION CRANE_UNTRACKED. One with a declared weight, a crane named or
not, then joins the queue, or is answered BUSY when eight requests stand there. One without a weight is BUSY for a crane that has a
deferred request, ready at once with the weight and quality of the hook and the crane's x when that very coil hangs WEIGHED on the hook,
WEIGHT_UNPROVEN when another coil does, and parked otherwise. BUSY and REFUSED return the tag, the coil id and the crane (R121 to
R123, R126, R132, R176; the bytes that carry them are the model's choice, log 8). -/
def Obligations.AllocateRequestsArrive : Prop :=
  ∀ (s : State) (f : Frame) (r : RawAllocate), readAllocate f.payload = some r →
    (s.Request .allocate f → s.part.engine.answers ≠ [] →
      exec .allocate s = .next (s.withPart { s.part.dropSup with mgmt := { s.part.mgmt with held := some f } }))
    ∧ ∀ taken : Part, s.part.engine.answers = [] →
      (s.Request .allocate f ∧ taken = s.part.dropSup
        ∨ s.part.inReset = false ∧ s.part.mgmt.held = some f ∧ f.kind = 0x63
          ∧ taken = { s.part with mgmt := { s.part.mgmt with held := none } }) →
      let gives := fun (a : Answer) (why : Option Reason) => exec .allocate s = .next (s.withPart (taken.giveAnswer
        ⟨0x63, f.seq, a, why, le 2 r.tag ++ le 4 (r.coil.elim 0 BitVec.toNat) ++ le 1 (r.crane.getD 255)⟩))
      (r.coil = none ∨ (∃ n, r.crane = some n ∧ ∀ c : Fin 4, c.val = n → (s.part.entry c).configured = false)
          ∨ r.diameter = some 0 ∨ r.width = some 0 ∨ (∃ x, r.source = .given x ∧ 262143 < x)
          ∨ (r.source = .fromCrane ∧ r.crane = none) →
        gives .refused (some .badValue))
      ∧ ∀ (id : CoilId) (crane : Option (Fin 4)), r.coil = some id → r.crane = crane.map Fin.val →
        (∀ c, crane = some c → (s.part.entry c).configured = true) → r.diameter ≠ some 0 → r.width ≠ some 0 →
        ((∃ x, r.source = .given x ∧ x ≤ 262143) ∨ (r.source = .fromCrane ∧ crane ≠ none)) →
        let q : Request :=
          ⟨f.seq, r.tag, id, r.weight, r.diameter, r.width, r.group, r.source, crane, r.mask, r.groundOnly, s.part.mgmt.clock⟩
        (r.weight = none → crane = none → gives .refused (some .weightUnproven))
        ∧ (∀ c, crane = some c → r.source = .fromCrane → (s.part.record c).last = none →
          gives .refused (some .craneUntracked))
        ∧ ((∀ c, crane = some c → r.source = .fromCrane → (s.part.record c).last ≠ none) →
          (r.weight ≠ none → s.part.engine.queue.length < 8 →
            exec .allocate s = .next (s.withPart (taken.setQueue (s.part.engine.queue ++ [q]))))
          ∧ (r.weight ≠ none → 8 ≤ s.part.engine.queue.length → gives .busy none)
          ∧ ∀ c, r.weight = none → crane = some c →
            let waits := fun st : DeferredState => exec .allocate s = .next (s.withPart (taken.setDeferred c (some ⟨q, st⟩)))
            (s.part.engine.deferred[c] ≠ none → gives .busy none)
            ∧ (s.part.engine.deferred[c] = none →
              ((s.part.hook c).state ≠ .weighed → waits .parked)
              ∧ ∀ coil : Coil, (s.part.hook c).state = .weighed → (s.part.hook c).coil = some coil →
                (coil.id = some id →
                  waits (.ready coil.weight coil.quality (s.part.craneX c) s.part.mgmt.clock))
                ∧ (coil.id ≠ some id → gives .refused (some .weightUnproven))))

/-- With no search in service and no answer waiting, the search of the only ready request starts: the head of the queue, or a ready
deferred request. It takes the routing entry of the group class, the overflow block, the ground term and the mix term of that
moment, and stands at the slot map as one request. A search completes: for the queue's head with its declared weight, quality GOOD and
the source x given or the crane's recorded x, for a ready deferred request with the weight, quality and x it took. A slot found in the
candidate blocks, or else in the overflow block when that is defined and none of them, is RESERVED with the next number for the coil and
the answer is ALLOCATED; with none found it is NO_SLOT with the blocks searched; a FROM_CRANE request whose crane's record was cleared
is CRANE_UNTRACKED. The request and the search end (R112, R118, R122, R124 to R133; the data's layout is the model's, log 8). -/
def Obligations.AllocationSearchesAreServed : Prop :=
  (∀ s : State, s.part.inReset = false → s.part.engine.search = none → s.part.engine.answers = [] →
    let started := fun (origin : SearchOrigin) (group : Nat) =>
      { s.part with
        engine := { s.part.engine with
          search := some ⟨origin, s.part.engine.routing[Fin.ofNat 8 (group / 32)], s.part.params.overflow,
            s.part.params.ground, s.part.params.mix⟩ }
        slots := { s.part.slots with requests := s.part.slots.requests ++ [.search] } }
    let ready := fun c : Fin 4 => (s.part.engine.deferred[c].bind fun d => d.time false).isSome
    (∀ (q : Request) (rest : List Request), s.part.engine.queue = q :: rest → (∀ c, ready c = false) →
      exec .allocationSearch s = .next (s.withPart (started .queue q.group)))
    ∧ (∀ (c : Fin 4) (d : Deferred), s.part.engine.queue = [] → s.part.engine.deferred[c] = some d → ready c = true →
      (∀ e, e ≠ c → ready e = false) →
      exec .allocationSearch s = .next (s.withPart (started (.deferred c) d.req.group))))
  ∧ ∀ (s : State) (waiting : List SlotTask) (sr : Search) (q : Request),
    s.part.inReset = false → s.part.slots.requests = .search :: waiting → s.part.engine.search = some sr →
    let ended := fun (m : SlotMap) (answer : Answer) (why : Option Reason) (data : List Byte) =>
      let p := { s.part with slots := { m with requests := waiting } }.giveAnswer ⟨0x63, q.frameSeq, answer, why, data⟩
      exec .allocationSearchComplete s = .next (s.withPart { p with engine := { p.engine with
        queue := if sr.origin = .queue then p.engine.queue.tail else p.engine.queue
        deferred := match sr.origin with
          | .queue => p.engine.deferred
          | .deferred c => p.engine.deferred.set c none
        search := none } })
    (∀ c : Fin 4, sr.origin = .queue → s.part.engine.queue.head? = some q → q.source = .fromCrane → q.crane = some c →
      (s.part.record c).last = none →
      ended s.part.slots .refused (some .craneUntracked) (le 2 q.tag ++ le 4 q.coil.toNat ++ le 1 c.val))
    ∧ ∀ (weight : Nat) (quality : Quality) (x : Nat),
      ((sr.origin = .queue ∧ s.part.engine.queue.head? = some q ∧ q.weight = some weight ∧ quality = .good
          ∧ (q.source = .given x ∨ (q.source = .fromCrane ∧ ∃ (c : Fin 4) (last : Telegram),
            q.crane = some c ∧ (s.part.record c).last = some last ∧ x = last.x)))
        ∨ ∃ (c : Fin 4) (since : Time), sr.origin = .deferred c
          ∧ s.part.engine.deferred[c] = some ⟨q, .ready weight quality x since⟩) →
      let w : Wanted := ⟨⟨some q.coil, weight, quality, q.diameter, q.width, q.group⟩, x, q.groundOnly⟩
      let m := s.part.slots
      let blocks := m.candidateBlocks q.mask sr.routing
      let found := fun (i : Nat) (slot : Slot) (cost : Nat) (overflow : Bool) =>
        let r : Reservation := ⟨m.counter, some q.coil, weight, q.diameter, q.width, q.group,
          s.part.mgmt.clock + BitVec.ofNat 32 (s.part.params.reservationTime * 1000), false⟩
        ended { m.setContents i (.reserved r) with counter := if m.counter < 65535 then m.counter + 1 else 1 }
          .allocated none (q.allocatedData i slot r cost overflow)
      let overflows := fun b : Fin 8 => sr.overflow = some b.val ∧ m.blocks[b].defined = true ∧ b ∉ blocks
      (∀ (i : Nat) (slot : Slot) (cost : Nat), m.winner sr w blocks = some (i, slot, cost) → found i slot cost false)
      ∧ (m.winner sr w blocks = none →
        ((∀ b, ¬ overflows b) → ended m .noSlot none (q.noSlotData blocks w))
        ∧ ∀ b, overflows b →
          (∀ (i : Nat) (slot : Slot) (cost : Nat), m.winner sr w [b] = some (i, slot, cost) → found i slot cost true)
          ∧ (m.winner sr w [b] = none → ended m .noSlot none (q.noSlotData (blocks ++ [b]) w)))

/-- The winner of a pass is a candidate of the blocks searched, of lowest cost, and of equal costs of the lowest slot index; and there
is none only when no slot is a candidate (R129 to R131). -/
def Obligations.WinnerHasTheLowestCost : Prop :=
  ∀ (m : SlotMap) (q : Search) (w : Wanted) (blocks : List (Fin 8)), m.Sorted →
    let fit := fun e : Nat × Slot => e ∈ m.slots ∧ e.2.geo.block ∈ blocks ∧ m.candidate w e.2 = true
    (∀ (i : Nat) (s : Slot) (cost : Nat), m.winner q w blocks = some (i, s, cost) ↔
      fit (i, s) ∧ cost = m.cost q w s
        ∧ ∀ e, fit e → cost < m.cost q w e.2 ∨ (cost = m.cost q w e.2 ∧ i ≤ e.1))
    ∧ (m.winner q w blocks = none ↔ ∀ e, ¬ fit e)

/-! ## The slot map (05) -/

/-- The placement test passes exactly when every known size fits the saddle, a tier-2 slot has two OCCUPIED supports under it that the
coil may stand on (all three GOOD, not heavier than the lighter support, not wider across than the smaller support by more than the
overhang with every diameter known, a ship group not above either), and the floor load stays within the limit (R101, R102). -/
def Obligations.PlacementTestFollowsTheRules : Prop :=
  ∀ (m : SlotMap) (s : Slot) (coil : Coil) (load : Nat),
    m.placementTest s coil load = none ↔
      (∀ d, coil.diameter = some d → d ≤ s.geo.maxDiameter) ∧ (∀ w, coil.width = some w → w ≤ s.geo.maxWidth)
        ∧ (∀ i j, s.geo.tier = .upper i j → ∃ (a b : Coil) (d da db : Nat),
          m.standing i = some a ∧ m.standing j = some b ∧ a.quality = .good ∧ b.quality = .good ∧ coil.quality = .good
            ∧ coil.weight ≤ a.weight ∧ coil.weight ≤ b.weight
            ∧ coil.diameter = some d ∧ a.diameter = some da ∧ b.diameter = some db
            ∧ d ≤ da + m.blocks[s.geo.block].overhang ∧ d ≤ db + m.blocks[s.geo.block].overhang
            ∧ coil.group ≤ a.group ∧ coil.group ≤ b.group)
        ∧ load + coil.weight ≤ m.blocks[s.geo.block].limit

/-- A RESERVE of a FREE slot that passes the placement test with the declared data and quality GOOD makes it RESERVED with the next
number, the present time plus the reservation time, and its data; one that fails gives the test's reason; a slot that is not FREE
gives SLOT_STATE (R101, R112, R113, R177; the bytes that carry number and expiry in the reply are the model's choice, log 8). -/
def Obligations.ReserveTakesAFreeSlot : Prop :=
  ∀ (s : State) (f : Frame) (i : Nat) (q : CoilFields) (slot : Slot),
    s.Request .reserve f → s.Quiet → readReserve f.payload = some (i, q) → s.part.slots.slot i = some slot →
    let m := s.part.slots
    let coil : Coil := ⟨q.id, q.weight, .good, q.diameter, q.width, q.group⟩
    let test := m.placementTest slot coil (m.occupiedSum slot.geo.block + m.reservedSum slot.geo.block)
    let r : Reservation := ⟨m.counter, q.id, q.weight, q.diameter, q.width, q.group,
      s.part.mgmt.clock + BitVec.ofNat 32 (s.part.params.reservationTime * 1000), false⟩
    (slot.contents = .free → test = none →
      exec .reserve s = .next (s.withPart ({ s.part.dropSup with
        slots := { m.setContents i (.reserved r) with counter := if m.counter < 65535 then m.counter + 1 else 1 } }.ok f
          (le 2 r.number ++ le 4 r.expiry.toNat))))
    ∧ (∀ why : Reason, slot.contents = .free → test = some why →
      exec .reserve s = .next (s.withPart (s.part.dropSup.answerFrame f .refused (some why) [])))
    ∧ (slot.contents ≠ .free →
      exec .reserve s = .next (s.withPart (s.part.dropSup.answerFrame f .refused (some .slotState) [])))

/-- An UNRESERVE with number 0 or the slot's own frees a RESERVED slot. A SLOT_SET of a FREE, OCCUPIED or BLOCKED slot sets it FREE or
BLOCKED when it is not buried, and OCCUPIED with the coil, placed now, when its checks pass; nothing else changes (R103, R115,
R116). -/
def Obligations.SlotsAreFreedAndSet : Prop :=
  ∀ (s : State) (f : Frame) (i : Nat) (slot : Slot), s.Quiet → s.part.slots.slot i = some slot →
    let becomes := fun (x : Contents) => ({ s.part.dropSup with slots := s.part.slots.setContents i x } : Part).ok f []
    (∀ (n : Nat) (r : Reservation), s.Request .unreserve f → readUnreserve f.payload = some (i, n) →
      slot.contents = .reserved r →
      (n = 0 ∨ n = r.number → exec .unreserve s = .next (s.withPart (becomes .free)))
      ∧ (n ≠ 0 → n ≠ r.number →
        exec .unreserve s = .next (s.withPart (s.part.dropSup.answerFrame f .refused (some .reservedOther) []))))
    ∧ (slot.contents.settable = true → s.Request .slotSet f →
      (readSlotSet f.payload = some (i, .free) → s.part.slots.buried i = false →
        exec .slotSet s = .next (s.withPart (becomes .free)))
      ∧ (readSlotSet f.payload = some (i, .blocked) → s.part.slots.buried i = false →
        exec .slotSet s = .next (s.withPart (becomes .blocked)))
      ∧ (∀ new, readSlotSet f.payload = some (i, new) → new = .free ∨ new = .blocked → s.part.slots.buried i = true →
        exec .slotSet s = .next (s.withPart (s.part.dropSup.answerFrame f .refused (some .buried) [])))
      ∧ (∀ coil : Coil, readSlotSet f.payload = some (i, .occupied coil) → s.part.slotSetCheck i slot coil = none →
        exec .slotSet s = .next (s.withPart (becomes (.occupied coil s.part.mgmt.clock)))))

/-- The set-down of a WEIGHED coil: within tolerance of a destination slot that is INCOMING for the crane, the slot becomes OCCUPIED
with the coil record, placed now; without a destination the coil is lost, kept as the last lost coil and counted. Either way the hook
is EMPTY with no coil, and what it was bound for is gone from it (R91 to R93, R110). Within tolerance of a placement that is INCOMING
for the crane the set-down is committed: the placement is PLACED with the coil, the front and rear loads take its weight by the
axle computation, one more is placed, the scale check is pending at a bay with a scale, and the bay's state is derived (R151,
R153). -/
def Obligations.SetDownReachesTheSlot : Prop :=
  ∀ (p : Part) (c : Fin 4) (coil : Coil), (p.hook c).coil = some coil →
    (∀ (i : Nat) (g : Geometry) (r : Reservation) (w x y : Nat), (p.hook c).dest = some ⟨.slot i, x, y⟩ →
      p.slots.slot i = some ⟨g, .incoming r c w⟩ →
      p.craneX c ≤ x + (p.entry c).tolerance → x ≤ p.craneX c + (p.entry c).tolerance →
      p.craneY c ≤ y + (p.entry c).tolerance → y ≤ p.craneY c + (p.entry c).tolerance →
      ((p.setDown c).slots.slot i = some ⟨g, .occupied coil p.mgmt.clock⟩
        ∧ (∀ j, j ≠ i → (p.setDown c).slots.slot j = p.slots.slot j)
        ∧ ((p.setDown c).hook c).state = .empty ∧ ((p.setDown c).hook c).coil = none ∧ ((p.setDown c).hook c).dest = none
        ∧ ((p.setDown c).hook c).lostCount = (p.hook c).lostCount))
    ∧ ((p.hook c).dest = none →
      (p.setDown c).slots = p.slots ∧ ((p.setDown c).hook c).state = .empty ∧ ((p.setDown c).hook c).coil = none
        ∧ ((p.setDown c).hook c).lost = some coil ∧ ((p.setDown c).hook c).lostCount = bump (p.hook c).lostCount)
    ∧ ∀ (b : Fin 6) (k : Nat) (pl : Plan) (q : Placement) (x y : Nat), (p.hook c).dest = some ⟨.bayPos b k, x, y⟩ →
      (p.bay b).plan = some pl → pl.placements[k]? = some q → q.state = .incoming c →
      p.craneX c ≤ x + (p.entry c).tolerance → x ≤ p.craneX c + (p.entry c).tolerance →
      p.craneY c ≤ y + (p.entry c).tolerance → y ≤ p.craneY c + (p.entry c).tolerance →
      p.lines.driver[b].accepted = .active →
      let rear := (2 * (coil.weight * q.offset) + pl.wheelbase) / (2 * pl.wheelbase)
      ((p.setDown c).bay b).plan = some { pl with
          placements := pl.placements.set k { q with state := .placed coil }
          front := pl.front + ((coil.weight : Int) - rear)
          rear := pl.rear + rear
          placedCount := pl.placedCount + 1
          scalePending := pl.scalePending || (p.bayEntry b).scale }
        ∧ ((p.setDown c).bay b).state = ((p.setDown c).bay b).derived
        ∧ ((p.setDown c).hook c).state = .empty ∧ ((p.setDown c).hook c).coil = none ∧ ((p.setDown c).hook c).dest = none
        ∧ ((p.setDown c).hook c).lostCount = (p.hook c).lostCount ∧ (p.setDown c).slots = p.slots

/-! ## Table writes (09) -/

/-- In STARTUP a crane table entry in range is written. With its configured field unchanged nothing else changes; with the field
changed the crane starts afresh: record, order and latch as after power-on, hook EMPTY without a coil, every pair mark clear, and a
crane that becomes configured has STARTUP in its latch and its stop line asserted; other cranes and the zones keep what they have
(R1, R2, R54, R67, R69, R95). -/
def Obligations.CraneTableIsWritten : Prop :=
  ∀ (s : State) (f : Frame) (c : Fin 4) (bytes : List Byte) (e : CraneEntry),
    s.Request .tableWrite f → s.Quiet → s.part.mgmt.mode = .startup → WritesTable f.payload 1 c.val [bytes] →
    parseCraneEntry bytes = some e → e.inRange = true →
    (e.configured = (s.part.entry c).configured →
      exec .tableWriteCrane s = .next (s.withPart ({ s.part.dropSup with
        tracker := { s.part.tracker with entries := s.part.tracker.entries.set c e } }.ok f [])))
    ∧ (e.configured ≠ (s.part.entry c).configured →
      ∃ t : State, exec .tableWriteCrane s = .next t ∧ t.pending = s.pending
        ∧ t.part.tracker = ⟨s.part.tracker.entries.set c e, s.part.tracker.records.set c ⟨.unseen, none, none, 0, 0, 0, 0⟩,
            Vector.replicate 4 false⟩
        ∧ t.part.order c = none
        ∧ t.part.latch c = ⟨{ CauseSet.none with startup := e.configured }, BaySet.none⟩
        ∧ t.part.lines.stop[c].commanded = e.configured
        ∧ (t.part.hook c).state = .empty ∧ (t.part.hook c).coil = none ∧ (t.part.hook c).source = none
        ∧ (t.part.hook c).dest = none ∧ (t.part.hook c).staged = none
        ∧ (t.part.hook c).active = ((s.part.hook c).staged.or (s.part.hook c).active)
        ∧ (∀ d, d ≠ c → t.part.order d = s.part.order d ∧ t.part.latch d = s.part.latch d ∧ t.part.hook d = s.part.hook d)
        ∧ t.part.arbiter = s.part.arbiter ∧ t.part.params = s.part.params ∧ t.part.mgmt.mode = s.part.mgmt.mode)

/-- In STARTUP every entry of a zone table or entry table write takes effect at its index, and nothing else changes; a zone that is
not defined before and after starts with no grant, hold, block or waiter (R23, R51, R178). -/
def Obligations.ZoneAndEntryTablesAreWritten : Prop :=
  ∀ (s : State) (f : Frame) (first : Nat) (es : List (List Byte)),
    s.Request .tableWrite f → s.part.mgmt.mode = .startup →
    (∀ zs : Nat → ZoneEntry, WritesTable f.payload 2 first es →
      (∀ j (h : j < es.length), readZoneEntry (first + j) es[j] = some (zs (first + j))) →
      exec .tableWriteZone s = .next (s.withPart ({ s.part.dropSup with arbiter := { s.part.arbiter with
        zones := Vector.ofFn fun k : Fin 32 =>
          if first ≤ k.val ∧ k.val < first + es.length then
            { (if s.part.arbiter.zones[k].defined && (zs k).defined then s.part.arbiter.zones[k] else Zone.reset) with
              defined := (zs k).defined, start := (zs k).start, cap := (zs k).cap, loaded := (zs k).loaded,
              bay := (zs k).bay }
          else s.part.arbiter.zones[k] } }.ok f [])))
    ∧ (∀ ps : Nat → EntryPoint, WritesTable f.payload 3 first es →
      (∀ j (h : j < es.length), readEntryPoint (first + j) es[j] = some (ps (first + j))) →
      exec .tableWriteEntry s = .next (s.withPart ({ s.part.dropSup with gate := { s.part.gate with
        entryPoints := Vector.ofFn fun k : Fin 4 =>
          if first ≤ k.val ∧ k.val < first + es.length then ps k else s.part.gate.entryPoints[k] } }.ok f [])))

/-- A block table write whose entries are in range is applied whole when no entry changes a defined field outside STARTUP, makes
undefined a block that has slots, or sets a limit below the block's committed sum. A routing write is applied in every mode, after the
requests that wait at the slot map. A calibration write of two to eight rising points becomes the staged table of its crane, and the
active one at once on an EMPTY hook, where it clears the tracked tare (R75, R76, R97, R118, R127, R178; how a frame waits at the slot
map is the model's reading, log 11). -/
def Obligations.BlockGroupAndCalibrationAreWritten : Prop :=
  ∀ (s : State) (f : Frame) (first : Nat) (es : List (List Byte)), s.Request .tableWrite f →
    (∀ bs : Nat → Block, s.Quiet → WritesTable f.payload 4 first es → first + es.length ≤ 8 →
      (∀ j (h : j < es.length), (readBlock (first + j) es[j]).map Prod.snd = some (bs (first + j))) →
      (∀ k : Fin 8, first ≤ k.val → k.val < first + es.length →
        (s.part.mgmt.mode = .startup ∨ (bs k).defined = s.part.slots.blocks[k].defined)
          ∧ (s.part.slots.blocks[k].defined = true → (bs k).defined = true ∨ s.part.slots.blockUsed k = false)
          ∧ s.part.slots.committedSum k ≤ (bs k).limit) →
      exec .tableWriteBlock s = .next (s.withPart ({ s.part.dropSup with slots := { s.part.slots with
        blocks := Vector.ofFn fun k : Fin 8 =>
          if first ≤ k.val ∧ k.val < first + es.length then bs k else s.part.slots.blocks[k] } }.ok f [])))
    ∧ (s.part.slots.requests ≠ [] → WritesTable f.payload 6 first es →
      exec .tableWriteGroupMap s = .next (s.withPart { s.part.dropSup with
        mgmt := { s.part.mgmt with held := some f }
        slots := { s.part.slots with requests := s.part.slots.requests ++ [.management f] } }))
    ∧ (s.Quiet → WritesTable f.payload 6 first es → first + es.length ≤ 8 →
      exec .tableWriteGroupMap s = .next (s.withPart ({ s.part.dropSup with engine := { s.part.engine with
        routing := Vector.ofFn fun k : Fin 8 =>
          if first ≤ k.val ∧ k.val < first + es.length then BitVec.ofNat 8 (field (es.getD (k.val - first) []) 0 1)
          else s.part.engine.routing[k] } }.ok f [])))
    ∧ (∀ c : Fin 4, WritesTable f.payload 7 c.val es → 2 ≤ es.length →
      (es.map readCalPoint).Pairwise (fun a b => a.count < b.count ∧ a.kg ≤ b.kg) →
      let h := s.part.hook c
      (h.state = .empty → exec .tableWriteCalibration s = .next (s.withPart ((s.part.dropSup.setHook c
        { h with active := some (es.map readCalPoint), staged := none, tare := none, suspect := false }).ok f [])))
      ∧ (h.state ≠ .empty → exec .tableWriteCalibration s = .next (s.withPart ((s.part.dropSup.setHook c
        { h with staged := some (es.map readCalPoint) }).ok f []))))

/-- In STARTUP a geometry write whose entries are in range, in defined blocks and for slots that are undefined, FREE or BLOCKED is
applied whole when every tier-2 slot then rests on two different tier-1 slots of its block and row: a new slot is FREE, a defined one
keeps its contents, one marked undefined is gone, and every other slot stays (R99). It is stated for a
frame that names no slot twice (two entries for one slot: log 43). That the table is a list sorted by index is the model's form of it
(log 8). -/
def Obligations.SlotGeometryIsWritten : Prop :=
  ∀ (s : State) (f : Frame) (first : Nat) (es : List (List Byte)) (gs : List (Nat × Option Geometry)),
    s.Request .tableWrite f → s.Quiet → s.part.mgmt.mode = .startup → s.part.slots.Sorted →
    WritesTable f.payload 5 first es → es.map readGeometry = gs.map some → (gs.map Prod.fst).Nodup →
    (∀ e ∈ gs, (e.2.all fun g => s.part.slots.blocks[g.block].defined) = true) →
    (∀ e ∈ gs, ((s.part.slots.slot e.1).all fun x => x.contents == .free || x.contents == .blocked) = true) →
    let after := fun i : Nat => match gs.lookup i with
      | none => s.part.slots.slot i
      | some none => none
      | some (some g) => some ⟨g, ((s.part.slots.slot i).map Slot.contents).getD .free⟩
    (∀ i ∈ s.part.slots.slots.map Prod.fst ++ gs.map Prod.fst, ((after i).all fun x => x.restsIn after) = true) →
    ∃ m : SlotMap, exec .tableWriteSlotGeometry s = .next (s.withPart ({ s.part.dropSup with slots := m }.ok f []))
      ∧ (∀ i, m.slot i = after i) ∧ m.Sorted ∧ m.blocks = s.part.slots.blocks ∧ m.counter = s.part.slots.counter
      ∧ m.requests = s.part.slots.requests

/-- In STARTUP a bay table entry in range, whose station no other configured bay names, is written: an unconfigured bay, or a configured
one without DRIVER, changes nothing else; a configured one with DRIVER has the bay's part of the hold taken from the zones that leave
its mask, stated for zones without waiters, and set on the defined zones that join it; a bay that becomes configured starts with an empty record, green on and red off, and an
idle scan begins with it; a bay that stops being configured has no plan, no timers and dark lamps (R43, R72, R135 to R137, R157). -/
def Obligations.BayTableIsWritten : Prop :=
  ∀ (s : State) (f : Frame) (b : Fin 6) (bytes : List Byte) (e : BayEntry),
    s.Request .tableWrite f → s.Quiet → s.part.mgmt.mode = .startup → WritesTable f.payload 8 b.val [bytes] →
    parseBayEntry bytes = some e → e.inRange = true →
    (∀ d, d ≠ b → e.configured = true → (s.part.bayEntry d).configured = true → (s.part.bayEntry d).station ≠ e.station) →
    let written : Bays := { s.part.bays with entries := s.part.bays.entries.set b e }
    let lamp := fun (o : OutLine) (on : Bool) =>
      if o.commanded = on then o else ({ o with commanded := on, delay := some 0 } : OutLine)
    (e.configured = (s.part.bayEntry b).configured → e.configured = false ∨ (s.part.bay b).causes.driver = false →
      exec .tableWriteBay s = .next (s.withPart ({ s.part.dropSup with bays := written }.ok f [])))
    ∧ (e.configured = true → (s.part.bayEntry b).configured = true → (s.part.bay b).causes.driver = true →
      let old := (s.part.bayEntry b).mask
      (∀ k : Fin 32, old.getLsbD k.val = true → e.mask.getLsbD k.val = false → s.part.arbiter.zones[k].waiters = []) →
      exec .tableWriteBay s = .next (s.withPart ({ s.part.dropSup with
        bays := written
        arbiter := { s.part.arbiter with
          zones := Vector.ofFn fun k : Fin 32 =>
            let z := s.part.arbiter.zones[k]
            if old.getLsbD k.val = true ∧ e.mask.getLsbD k.val = false then { z with bayHold := z.bayHold.set b false }
            else if old.getLsbD k.val = false ∧ e.mask.getLsbD k.val = true ∧ z.defined = true then
              { z with bayHold := z.bayHold.set b true }
            else z } }.ok f [])))
    ∧ (e.configured = true → (s.part.bayEntry b).configured = false →
      let p := { s.part.dropSup with
        bays := { written with records := written.records.set b BayRecord.reset }
        lines := { s.part.lines with
          green := s.part.lines.green.set b (lamp s.part.lines.green[b] true)
          red := s.part.lines.red.set b (lamp s.part.lines.red[b] false) } }
      exec .tableWriteBay s = .next (s.withPart ((if s.part.bays.scan = none then p.startPoll b else p).ok f [])))
    ∧ (e.configured = false → (s.part.bayEntry b).configured = true →
      ∃ t : State, exec .tableWriteBay s = .next t ∧ t.pending = s.pending ∧ t.part.bays.entries = written.entries
        ∧ (t.part.bay b).plan = none ∧ (t.part.bay b).rearmAt = none ∧ (t.part.bay b).flashAt = none
        ∧ t.part.lines.red[b].commanded = false ∧ t.part.lines.green[b].commanded = false
        ∧ t.part.lines.red[b].fault = false ∧ t.part.lines.green[b].fault = false
        ∧ t.part.tracker.records = s.part.tracker.records ∧ t.part.params = s.part.params ∧ t.part.mgmt.mode = s.part.mgmt.mode)

/-- A parameter write whose values are in range, with the engage threshold above the release threshold and L changed only in STARTUP, is
applied whole; a changed window length empties every window (R4, R71, R77, R112, R127, R178). A write that meets a search at the
slot map waits there when it reaches the entries from 11 on, so such a write is stated with nothing waiting. The numbers and width
of the entries (log 7), and that a write of the length in force empties no window (log 22), are the model's choices. -/
def Obligations.ParametersAreWritten : Prop :=
  ∀ (s : State) (f : Frame) (first : Nat) (es : List (List Byte)) (value : Nat → Nat),
    s.Request .tableWrite f → s.Quiet ∨ first + es.length ≤ 11 → WritesTable f.payload 9 first es →
    (∀ j (h : j < es.length), paramInRange (first + j) (field es[j] 0 4) = true) →
    (∀ i, i < 14 → value i =
      if first ≤ i ∧ i < first + es.length then field (es.getD (i - first) []) 0 4 else s.part.params.get i) →
    value 6 < value 5 → (s.part.mgmt.mode = .startup ∨ value 0 = s.part.params.length) →
    ∃ (q : Params) (hooks : Vector Hook 4),
      exec .tableWriteParameters s = .next (s.withPart ({ s.part.dropSup with params := q, hooks := hooks }.ok f []))
        ∧ (∀ i, i < 14 → q.get i = value i)
        ∧ ∀ c : Fin 4, hooks[c] =
          if value 3 = s.part.params.window then s.part.hook c else { s.part.hook c with acc := Accumulator.reset }

/-- Outside STARTUP a write of the crane, zone, entry, slot geometry or bay table is answered WRONG_MODE and does nothing else; a
TABLE_WRITE that names no table is BAD_VALUE, one that does not fit its table MALFORMED, and so is a frame of another kind whose
payload has not its kind's length, whatever waits at the slot map or for the engine (R2, R23, R51, R99, R135, R176, R178; which row
serves a frame that names no table is log 9, the lengths are log 7). -/
def Obligations.TableWritesAreRefused : Prop :=
  (∀ (s : State) (f : Frame), ∀ form ∈ exactForms, s.Request form.2.1 f → f.payload.length ≠ form.2.2 →
    exec form.1 s = .next (s.withPart (s.part.dropSup.answerFrame f .refused (some .malformed) [])))
  ∧ ∀ (s : State) (f : Frame), s.Request .tableWrite f → s.Quiet →
    (∀ form ∈ ([(.tableWriteCrane, 1), (.tableWriteZone, 2), (.tableWriteEntry, 3), (.tableWriteSlotGeometry, 5),
        (.tableWriteBay, 8)] : List (Instr × Nat)), ∀ (first : Nat) (es : List (List Byte)),
      WritesTable f.payload form.2 first es → s.part.mgmt.mode ≠ .startup →
      exec form.1 s = .next (s.withPart (s.part.dropSup.answerFrame f .wrongMode none [])))
    ∧ (4 ≤ f.payload.length → field f.payload 0 1 = 0 ∨ 9 < field f.payload 0 1 →
      exec .tableWriteParameters s = .next (s.withPart (s.part.dropSup.answerFrame f .refused (some .badValue) [])))
    ∧ ∀ form ∈ ([(.tableWriteCrane, 1), (.tableWriteZone, 2), (.tableWriteEntry, 3), (.tableWriteBlock, 4),
        (.tableWriteSlotGeometry, 5), (.tableWriteGroupMap, 6), (.tableWriteCalibration, 7), (.tableWriteBay, 8),
        (.tableWriteParameters, 9)] : List (Instr × Nat)),
      4 ≤ f.payload.length → field f.payload 0 1 = form.2 → readTableWrite f.payload = .malformed →
      exec form.1 s = .next (s.withPart (s.part.dropSup.answerFrame f .refused (some .malformed) []))

/-! ## Reads and queries (09) -/

/-- A TABLE_READ returns as many entries from the first index on as were asked for, the table has and 55 bytes hold; of the calibration
tables, the one of the crane named. A first index beyond the table is BAD_VALUE. Nothing else changes (R76, R178, R179; the layouts
are log 7 and log 8). -/
def Obligations.TableReadReturnsEntries : Prop :=
  ∀ (s : State) (f : Frame) (table first count len most : Nat),
    s.Request .tableRead f → s.Quiet → f.payload.length = 4 → readTableHead f.payload = some ⟨table, first, count⟩ →
    tableForm table = some (len, most) →
    (first < tableSize table → table ≠ 7 →
      let n := min count (min (tableSize table - first) (55 / len))
      exec .tableRead s = .next (s.withPart (s.part.dropSup.ok f
        (BitVec.ofNat 8 n :: ((List.range' first n).map fun i => s.part.entryBytes table i).flatten))))
    ∧ (∀ c : Fin 4, table = 7 → first = c.val →
      exec .tableRead s = .next (s.withPart (s.part.dropSup.ok f ((s.part.hook c).calibrationBytes count))))
    ∧ (tableSize table ≤ first →
      exec .tableRead s = .next (s.withPart (s.part.dropSup.answerFrame f .refused (some .badValue) [])))

/-- A QUERY is answered with the part asked for of its subject's bytes, and nothing else changes but, with clear-counts, the counts of
its rule; a part that the answer does not have is BAD_VALUE (R5, R94, R98, R158, R174, R180, R181; the bytes' layout is log 8). A
subject index sent with a kind that has no subject is not looked at, which is the model's choice (log 45). -/
def Obligations.QueriesAreAnswered : Prop :=
  ∀ (s : State) (f : Frame) (q : QueryRequest), s.Request .query f → s.Quiet → readQuery f.payload = some q →
    let p := s.part.dropSup
    let answered := fun (i : Instr) (bytes : List Byte) (cleared : Part) =>
      exec i s = .next (s.withPart (
        if q.part < max 1 ((bytes.length + 53) / 54) then
          (if q.clear then cleared else p).ok f (answerData bytes q.part)
        else p.answerFrame f .refused (some .badValue) []))
    (∀ c : Fin 4, q.kind = 1 → q.subject = c.val → answered .queryCrane (s.part.craneBytes c)
      (p.setRecord c { s.part.record c with late := 0, clamp := 0, staleCount := 0, malformed := 0 }))
    ∧ (∀ k : Fin 32, q.kind = 2 → q.subject = k.val → answered .queryZone (s.part.zoneBytes k) p)
    ∧ (q.kind = 3 → q.subject < 1536 → answered .querySlot (s.part.slotBytes q.subject) p)
    ∧ (q.kind = 4 → answered .queryBlockSums s.part.blockSumsBytes p)
    ∧ (∀ c : Fin 4, q.kind = 5 → q.subject = c.val → answered .queryHook (s.part.hook c).bytes
      (p.setHook c { s.part.hook c with late := 0, malformed := 0, unsettled := 0, lostCount := 0 }))
    ∧ (∀ b : Fin 6, q.kind = 6 → q.subject = b.val → answered .queryBay (s.part.bayBytes b)
      (p.setBay b { s.part.bay b with totalMisses := 0, late := 0, malformed := 0 }))
    ∧ (q.kind = 7 → answered .queryLink p.link.bytes
      (p.onLink fun l => { l with sup := { l.sup with counts := LinkCounts.zero },
                                  crane := { l.crane with counts := LinkCounts.zero } }))
    ∧ (q.kind = 8 → answered .queryPart s.part.partBytes { p with mgmt := { s.part.mgmt with lost := 0 } })
    ∧ (q.kind = 9 → answered .querySummary s.part.summaryBytes p)

/-! ## Bays, stops, modes and restart by management frames -/

/-- A PLAN_LOAD for a configured bay, in range, within the limits with nothing placed, and with no placement INCOMING, loads the plan:
the scale check pending when the bay has a scale, DISCREPANCY gone, STALE as the polls say, the state derived; over the axle limits it
is AXLE_LIMIT, with a placement INCOMING it is IN_USE (R139, R140, R144, R151, R154). -/
def Obligations.PlanIsLoaded : Prop :=
  ∀ (s : State) (f : Frame) (b : Fin 6) (pl : Plan),
    s.Request .planLoad f → s.Quiet → readPlan f.payload = some (b.val, pl) → (s.part.bayEntry b).configured = true →
    pl.inRange = true →
    ((s.part.bay b).someIncoming = true →
      exec .planLoad s = .next (s.withPart (s.part.dropSup.answerFrame f .refused (some .inUse) [])))
    ∧ ((s.part.bay b).someIncoming = false → pl.within pl.tareFront pl.tareRear = false →
      exec .planLoad s = .next (s.withPart (s.part.dropSup.answerFrame f .refused (some .axleLimit) [])))
    ∧ ((s.part.bay b).someIncoming = false → pl.within pl.tareFront pl.tareRear = true →
      s.part.lines.driver[b].accepted = .active →
      ∃ t : State, exec .planLoad s = .next t ∧ t.pending = s.pending
        ∧ (t.part.bay b).plan = some { pl with scalePending := (s.part.bayEntry b).scale }
        ∧ (t.part.bay b).causes =
          { (s.part.bay b).causes with discrepancy := false, stale := (s.part.bay b).pollStale }
        ∧ (t.part.bay b).state = (t.part.bay b).derived ∧ (t.part.bay b).rearmAt = (s.part.bay b).rearmAt
        ∧ (∀ d, (t.part.bay d).pollFacts = (s.part.bay d).pollFacts)
        ∧ t.part.tracker.records = s.part.tracker.records ∧ s.part.SameTables t.part)

/-- A PLAN_CLEAR of a configured bay without a plan only answers OK; with a plan and no placement INCOMING the plan is discarded with
DISCREPANCY and STALE, and the state derived. A BAY_ACK answers with the pause causes that remain; with DISCREPANCY and the driver
safe it removes that cause and the state is derived (R139, R141, R142, R144, R149; the byte that carries the causes is the model's
choice, log 8). -/
def Obligations.PlanIsClearedAndBayAcknowledged : Prop :=
  ∀ (s : State) (f : Frame) (b : Fin 6), s.Quiet → (s.part.bayEntry b).configured = true → readOne f.payload = some b.val →
    (s.Request .planClear f → (s.part.bay b).plan = none →
      exec .planClear s = .next (s.withPart (s.part.dropSup.ok f [])))
    ∧ (s.Request .planClear f → (s.part.bay b).someIncoming = true →
      exec .planClear s = .next (s.withPart (s.part.dropSup.answerFrame f .refused (some .inUse) [])))
    ∧ (s.Request .planClear f → (s.part.bay b).plan ≠ none → (s.part.bay b).someIncoming = false →
      ∃ t : State, exec .planClear s = .next t ∧ t.pending = s.pending ∧ (t.part.bay b).plan = none
        ∧ (t.part.bay b).causes = { (s.part.bay b).causes with discrepancy := false, stale := false }
        ∧ (t.part.bay b).state = (t.part.bay b).derived ∧ (∀ d, (t.part.bay d).pollFacts = (s.part.bay d).pollFacts)
        ∧ t.part.tracker.records = s.part.tracker.records ∧ s.part.SameTables t.part)
    ∧ (s.Request .bayAck f → (s.part.bay b).causes.discrepancy = false →
      exec .bayAck s = .next (s.withPart (s.part.dropSup.ok f [BitVec.ofNat 8 (s.part.bay b).causes.flags])))
    ∧ (s.Request .bayAck f → (s.part.bay b).causes.discrepancy = true → s.part.lines.driver[b].accepted = .active →
      let r := { s.part.bay b with causes := { (s.part.bay b).causes with discrepancy := false } }
      exec .bayAck s = .next (s.withPart (((s.part.dropSup.setBay b r).deriveOnce b).ok f [BitVec.ofNat 8 r.causes.flags])))

/-- The state derived from a bay's facts, in the order of R144. -/
def Obligations.BayStateFollowsItsFacts : Prop :=
  ∀ r : BayRecord,
    (r.derived = .empty ↔ r.last.all (fun rep => !rep.present) = true)
    ∧ (r.derived = .paused ↔ r.last.any Report.present = true ∧ r.plan.isSome = true ∧ r.causes.any = true)
    ∧ (∀ (rep : Report) (pl : Plan), r.last = some rep → rep.present = true → r.plan = some pl → r.causes.any = false →
      (r.derived = .arrived ↔ ¬ (rep.inPosition = true ∧ (pl.truck = none ∨ pl.truck = rep.truck)))
      ∧ (rep.inPosition = true → pl.truck = none ∨ pl.truck = rep.truck →
        (r.derived = .ready ↔ pl.placedCount = 0)
        ∧ (r.derived = .loading ↔ 0 < pl.placedCount ∧ pl.placedCount < pl.placements.length)
        ∧ (r.derived = .complete ↔ 0 < pl.placedCount ∧ pl.placements.length ≤ pl.placedCount)))
    ∧ (r.last.any Report.present = true → r.plan = none → r.derived = .arrived)

/-- A STOP_RELEASE of a configured crane removes the causes of its latch that no longer hold, in their order: STALE when it is TRACKED,
ORDERING when it is in order, INTRUSION when a fresh envelope was requested, which the arbiter takes first, and the envelope's cover then
lies within the grant, CAB_AREA when its hook is not loaded or out of every cab area, BAY_DRIVER when every bay of the set is safe,
TRUCK_LEFT always, STARTUP never. Without INTRUSION no envelope is requested. With none left the stop line is inactive, an unsent STOP
leaves URGENT and STOP_CLEARED (1) is queued. The reply names the causes that remain (R14, R15, R31, R33, R68, R136, R156). That a latch
without any cause goes the same way (log 19), and the byte that carries the causes (log 8), are the model's choices. -/
def Obligations.StopReleaseRemovesSettledCauses : Prop :=
  ∀ (s : State) (f : Frame) (c : Fin 4),
    s.Request .stopRelease f → s.Quiet → readOne f.payload = some c.val → (s.part.entry c).configured = true →
    let l := s.part.latch c
    let first : CauseSet := { l.causes with
      stale := l.causes.stale && (s.part.record c).tracking != .tracked
      ordering := l.causes.ordering && !s.part.inOrder c }
    let judged := s.part.dropSup.setLatch c ⟨first, l.bays⟩
    let q := if l.causes.intrusion then judged.requestEnvelope c else judged
    let within := (q.run c).any fun g => ((q.record c).envelope.bind Envelope.cover).any fun v =>
      decide (g.lo ≤ v.1) && decide (v.2 ≤ g.hi)
    let left : CauseSet :=
      { stale := first.stale
        ordering := first.ordering
        intrusion := l.causes.intrusion && !within
        cabArea := l.causes.cabArea && ((q.hook c).loaded && q.inCabArea (q.craneX c) (q.craneY c))
        bayDriver := l.causes.bayDriver && !(bayList.all fun b =>
          !l.bays[b] || !(s.part.bayEntry b).configured || s.part.lines.driver[b].accepted == .active)
        truckLeft := false
        startup := l.causes.startup }
    let bays := if l.causes.bayDriver && !left.bayDriver then BaySet.none else l.bays
    let p := q.setLatch c ⟨left, bays⟩
    exec .stopRelease s = .next (s.withPart (
      if left.any then p.ok f [BitVec.ofNat 8 left.flags]
      else (((p.commandStop c false).onLink fun l => { l with urgent := l.urgent.filter fun u =>
        !(u.crane == c && match u.body with | .stop _ => true | .halt _ => false) }).notify
          .stopCleared c.val 1 0 0).ok f [0]))

/-- A MODE frame for the mode in force only answers OK; MAINTENANCE in STARTUP is WRONG_MODE. RUN from the other modes, once its checks
pass, takes the fresh covers as grants, removes STARTUP from the latches of the configured cranes and changes the mode; a failed
check refuses it with its index, one of the last two after the fresh envelopes were requested, which stay. MODE 0 is BAD_VALUE, and a
code above 2 or another length MALFORMED. MAINTENANCE from RUN ends every active order, keeps grants and latches, and leaves no crane
command in NORMAL for a configured crane (R176, R187 to R190). The row that serves MODE 0, a code above 2 and another length (log 9),
the bytes that carry the index (log 8), the entry that NOT_TILED names
(log 14), and that the envelopes are requested from west to east and nothing is taken back on a refusal (log 38), are the model's
choices. -/
def Obligations.ModesChange : Prop :=
  ∀ (s : State) (f : Frame), s.Request .mode f → s.Quiet →
    (readOne f.payload = some 1 → s.part.mgmt.mode = .run → exec .modeRun s = .next (s.withPart (s.part.dropSup.ok f [])))
    ∧ (readOne f.payload = some 2 → s.part.mgmt.mode = .maintenance →
      exec .modeMaintenance s = .next (s.withPart (s.part.dropSup.ok f [])))
    ∧ (readOne f.payload = some 2 → s.part.mgmt.mode = .startup →
      exec .modeMaintenance s = .next (s.withPart (s.part.dropSup.answerFrame f .wrongMode none [])))
    ∧ (∀ (why : Reason) (i : Nat), readOne f.payload = some 1 → s.part.mgmt.mode ≠ .run → s.part.runChecks = some (why, i) →
      exec .modeRun s = .next (s.withPart (s.part.dropSup.answerFrame f .refused (some why) (le 2 i))))
    ∧ (readOne f.payload = some 0 →
      exec .modeRun s = .next (s.withPart (s.part.dropSup.answerFrame f .refused (some .badValue) [])))
    ∧ ((∀ n : Nat, readOne f.payload = some n → 2 < n) →
      exec .modeRun s = .next (s.withPart (s.part.dropSup.answerFrame f .refused (some .malformed) [])))
    ∧ (let p := s.part.configured.foldl (fun p c => p.requestEnvelope c) s.part.dropSup
      ∀ (why : Reason) (i : Nat), readOne f.payload = some 1 → s.part.mgmt.mode ≠ .run → s.part.runChecks = none →
        p.coverChecks = some (why, i) →
        exec .modeRun s = .next (s.withPart (p.answerFrame f .refused (some why) (le 2 i))))
    ∧ (let p := s.part.configured.foldl (fun p c => p.requestEnvelope c) s.part.dropSup
      readOne f.payload = some 1 → s.part.mgmt.mode ≠ .run → s.part.runChecks = none → p.coverChecks = none →
      ∃ t : State, exec .modeRun s = .next t ∧ t.pending = s.pending ∧ t.part.mgmt.mode = .run
        ∧ (∀ c, t.part.run c =
          if (s.part.entry c).configured then (p.cover c).map (fun v => (⟨v.1, v.2⟩ : Run)) else none)
        ∧ (∀ k : Fin 32, t.part.arbiter.zones[k] =
          { p.arbiter.zones[k] with grant := s.part.configured.find? fun c => p.covers c k.val })
        ∧ (∀ c, t.part.latch c = if (s.part.entry c).configured
          then { p.latch c with causes := { (p.latch c).causes with startup := false } } else p.latch c)
        ∧ t.part.tracker = p.tracker ∧ t.part.gate.orders = p.gate.orders ∧ t.part.hooks = p.hooks
        ∧ t.part.slots = p.slots ∧ t.part.bays = p.bays ∧ t.part.params = p.params ∧ t.part.mgmt.clock = p.mgmt.clock)
    ∧ (readOne f.payload = some 2 → s.part.mgmt.mode = .run →
      ∃ t : State, exec .modeMaintenance s = .next t ∧ t.pending = s.pending ∧ t.part.mgmt.mode = .maintenance
        ∧ (∀ c, (s.part.entry c).configured = true → t.part.activeOrder c = none
          ∧ ∀ e ∈ t.part.link.normal, e.sort.commands c = false)
        ∧ (∀ c, (s.part.entry c).configured = false → t.part.order c = s.part.order c)
        ∧ t.part.arbiter.runs = s.part.arbiter.runs ∧ t.part.gate.latches = s.part.gate.latches
        ∧ t.part.tracker.entries = s.part.tracker.entries ∧ t.part.tracker.records = s.part.tracker.records
        ∧ t.part.params = s.part.params ∧ t.part.mgmt.clock = s.part.mgmt.clock)

/-- A RESTART settles every waiting request of the engine, empties every order, grant, claim, management part and waiter list, takes a
LIFTING hook back to GRIPPED with an empty window, puts STARTUP into the latch of every configured crane and asserts its stop line, and
the mode is STARTUP; tables, parameters, crane records, blocked marks and bay parts of holds stay (R50, R74, R96, R120, R134, R191). -/
def Obligations.RestartReturnsToStartup : Prop :=
  ∀ (s : State) (f : Frame), s.Request .restart f → s.Quiet → f.payload = [] → s.part.engine.queue.length ≤ 8 →
    ∃ t : State, exec .restart s = .next t ∧ t.pending = s.pending ∧ t.part.mgmt.mode = .startup
      ∧ (∀ c, t.part.order c = none ∧ t.part.run c = none ∧ t.part.claim c = none)
      ∧ (∀ k : Fin 32, t.part.arbiter.zones[k] =
        { s.part.arbiter.zones[k] with grant := none, hold := none, waiters := [] })
      ∧ (∀ c, (t.part.hook c).state = (if (s.part.hook c).state = .lifting then .gripped else (s.part.hook c).state)
        ∧ (t.part.hook c).acc = Accumulator.reset ∧ (t.part.hook c).quiet = 0 ∧ (t.part.hook c).lift = none
        ∧ (t.part.hook c).dest = none ∧ (t.part.hook c).coil = (s.part.hook c).coil
        ∧ (t.part.hook c).active = (s.part.hook c).active)
      ∧ t.part.engine.queue = [] ∧ (∀ c : Fin 4, t.part.engine.deferred[c] = none)
      ∧ (∀ c, (s.part.entry c).configured = true → (t.part.latch c).causes.startup = true)
      ∧ (∀ c, (s.part.entry c).configured = false → t.part.latch c = s.part.latch c)
      ∧ t.part.tracker.entries = s.part.tracker.entries ∧ t.part.tracker.records = s.part.tracker.records
      ∧ t.part.params = s.part.params ∧ t.part.bays.entries = s.part.bays.entries
      ∧ (s.part.StopLinesFollow → ∀ c : Fin 4, (s.part.entry c).configured = true → t.part.lines.stop[c].commanded = true)
      ∧ t.part.gate.entryPoints = s.part.gate.entryPoints ∧ t.part.slots.blocks = s.part.slots.blocks
      ∧ (∀ i, (t.part.slots.slot i).map Slot.geo = (s.part.slots.slot i).map Slot.geo)
      ∧ t.part.engine.routing = s.part.engine.routing ∧ t.part.mgmt.clock = s.part.mgmt.clock

/-! ## Computations -/

/-- Stages 1 and 2 of the envelope, whole: the extrapolated position (R16) and the stopping distance (R17). -/
def Obligations.ExtrapolationAndStoppingDistance : Prop :=
  (∀ (x : Nat) (v : Int) (age : Nat), ∃ d : Nat, extrapolate x v age = (x : Int) + v.sign * d
      ∧ v.natAbs * age ≤ 1000 * d ∧ (∀ n : Nat, v.natAbs * age ≤ 1000 * n → d ≤ n)
      ∧ (v.natAbs ≤ 4095 → age ≤ 1000 → d ≤ 4095))
    ∧ (∀ (x : Nat) (v : Int) (age : Nat), v = 0 ∨ age = 0 → extrapolate x v age = x)
    ∧ (∀ x : Nat, extrapolate x 4095 1000 = (x : Int) + 4095 ∧ extrapolate x (-1001) 1 = (x : Int) - 2)
    ∧ (∀ (p : Part) (c : Fin 4) (t : Telegram) (age : Nat), 1 ≤ p.params.length →
      let e := extrapolate t.x t.vx age
      let xNow : Nat := if e < 0 then 0 else if (p.params.length : Int) - 1 < e then p.params.length - 1 else e.toNat
      ((p.envelopeAt c t age).lo, (p.envelopeAt c t age).hi) = (p.entry c).interval p.params.length xNow t.vx)
    ∧ (∀ (p : Part) (c : Fin 4) (g : Gripper),
      p.handOnPosition c g = (((p.checkOrdering c).computeEnvelope c 0).takeGripper c g).checkCab c)
    ∧ (∀ (v : Int) (reaction decel : Nat), 0 < decel → ∃ react brake : Nat, stoppingDistance v reaction decel = react + brake
      ∧ v.natAbs * reaction ≤ 1000 * react ∧ (∀ n : Nat, v.natAbs * reaction ≤ 1000 * n → react ≤ n)
      ∧ v.natAbs ^ 2 ≤ 2 * decel * brake ∧ (∀ n : Nat, v.natAbs ^ 2 ≤ 2 * decel * n → brake ≤ n))
    ∧ (∀ reaction decel : Nat, 0 < decel → stoppingDistance 0 reaction decel = 0)
    ∧ (stoppingDistance 4095 2000 100 = 92036 ∧ ceilDiv (4095 * 2000) 1000 = 8190 ∧ ceilDiv (4095 * 4095) (2 * 100) = 83846)
    ∧ ∀ (e : CraneEntry) (length x vmax : Nat) (v : Int),
      let d : Int := stoppingDistance v e.reaction e.decel
      ({ e with vmax := vmax } : CraneEntry).interval length x v
        = (clampTo (length - 1) ((x : Int) - e.westExt - (if v < 0 then d else 0) - e.margin),
          clampTo (length - 1) ((x : Int) + e.eastExt + (if 0 < v then d else 0) + e.margin))

/-- The coordinates of a bay position, whole (R143). -/
def Obligations.BayPositionResolves : Prop :=
  (∀ (p : Part) (b : Fin 6) (k : Nat) (t : Point), p.bayPoint b k = some t ↔
      (p.bayEntry b).configured = true ∧ ∃ (pl : Plan) (q : Placement),
        (p.bay b).plan = some pl ∧ pl.placements[k]? = some q
          ∧ (t.x : Int) = (match (p.bayEntry b).front with
            | .east => ((p.bayEntry b).axle : Int) - q.offset
            | .west => ((p.bayEntry b).axle : Int) + q.offset)
          ∧ t.x ≤ 262143 ∧ t.y = ((p.bayEntry b).yLo + (p.bayEntry b).yHi) / 2 ∧ t.z = pl.bed)
    ∧ (∀ (p : Part) (c : Fin 4) (b : Fin 6) (k : Nat) (kind : OrderKind), kind = .goto ∨ kind = .place →
      p.resolve c kind (some (.bayPos b.val k)) = (p.bayPoint b k).bind fun t => p.intoReach c kind t)
    ∧ ∀ (p : Part) (pl : Plan) (q : Placement), (p.bayEntry 3).configured = true → (p.bayEntry 3).axle = 116200 →
      (p.bayEntry 3).front = .east → (p.bayEntry 3).yLo = 27500 → (p.bayEntry 3).yHi = 32500 → (p.bay 3).plan = some pl →
      pl.bed = 1300 → pl.placements[0]? = some q → q.offset = 4100 → p.bayPoint 3 0 = some ⟨112100, 30000, 1300⟩

/-- The conversion through a calibration table: each point's count gives its weight, a count below the first point the first weight, one
above the last the last weight with overrange, and a larger count never a smaller weight (R75, R80). -/
def Obligations.ConversionFollowsTheTable : Prop :=
  ∀ (a : CalPoint) (rest : List CalPoint), (a :: rest).Pairwise (fun p q => p.count < q.count ∧ p.kg ≤ q.kg) →
    (∀ q ∈ a :: rest, convert q.count (a :: rest) = (q.kg, false))
    ∧ (∀ c : Int, c < a.count → convert c (a :: rest) = (a.kg, false))
    ∧ (∀ c : Int, ((a :: rest).getLast (by simp)).count < c →
      convert c (a :: rest) = (((a :: rest).getLast (by simp)).kg, true))
    ∧ ∀ c d : Int, c ≤ d → (convert c (a :: rest)).1 ≤ (convert d (a :: rest)).1

/-- Of the claims that wait on a zone the first served is of the highest class, and of that class the one that joined first; a zone that
is FREE, not HELD and not blocked goes to it when its hook may enter: the zone's grant and the crane's run change together, and the
order gate is told (R26, R30, R47). A zone that is not grantable, or that nobody waits for, stays as it is. Told of a grant, the gate
does nothing for a crane with no active order or a FORWARDED one; a WAITING or PARTIAL GOTO or PARK that has its whole span now is
FORWARDED, its MOVE_TO entering NORMAL with PASSED, or pending while NORMAL is full. Told of a refusal, with no progress to make, a
PARTIAL order is CLAMPED with the reason and ends when its MOVE_TO is done, and a WAITING one ends REFUSED (R59 to R62; that the
permitted x is then the recorded x, log 17, and that a command that enters NORMAL drops an older pending one of its order, log 20, are
the model's readings). A claim passed over for its loaded hook, and what a grant brings a PICK or PLACE, are not stated here. -/
def Obligations.FreeZoneGoesToTheFirstClaim : Prop :=
  (∀ (ws : List Waiter) (w : Waiter), bestWaiter ws = some w ↔
      ∃ before after, ws = before ++ w :: after ∧ (∀ v ∈ before, v.cls.rank < w.cls.rank)
        ∧ ∀ v ∈ after, v.cls.rank ≤ w.cls.rank)
    ∧ (∀ (p : Part) (k : Fin 32),
      let z := p.arbiter.zones[k]
      (z.grant.isSome = true ∨ z.hold.isSome = true ∨ z.bayHold.any = true ∨ z.blocked = true ∨ z.waiters = [] → p.handOn k = p)
      ∧ ∀ w : Waiter, z.grant = none → z.hold = none → z.bayHold.any = false → z.blocked = false →
        bestWaiter z.waiters = some w → p.claim w.crane = some ⟨k, w.cls, w.origin⟩ →
        (z.loaded = true ∨ (p.hook w.crane).loaded = false) →
        let run : Run := match p.run w.crane with
          | none => ⟨k, k⟩
          | some r => if k.val = r.hi + 1 then ⟨r.lo, k⟩ else if k.val + 1 = r.lo then ⟨k, r.hi⟩ else r
        let granted : Zone := { z with grant := some w.crane, waiters := z.waiters.filter fun v => v.crane != w.crane }
        p.handOn k = ({ p with arbiter :=
          { zones := p.arbiter.zones.set k granted, runs := p.arbiter.runs.set w.crane (some run),
            claims := p.arbiter.claims.set w.crane none } }).reportGranted w.crane)
    ∧ (∀ (p : Part) (c : Fin 4), (∀ o, p.activeOrder c = some o → o.state = .forwarded) → p.reportGranted c = p)
    ∧ (∀ (p : Part) (c : Fin 4) (o : Order) (g : Run), p.activeOrder c = some o → o.state = .waiting ∨ o.state = .partly →
      o.kind = .goto ∨ o.kind = .park → p.run c = some g → g.lo ≤ (p.zonesAt c o.target.x).1 →
      (p.zonesAt c o.target.x).2 ≤ g.hi →
      let cmd : Command := ⟨.moveTo, o.target.x, o.target.y, (p.entry c).zSafe, 0⟩
      let whole : Order := { o with permitted := o.target.x, state := .forwarded }
      (p.link.normal.length < 16 →
        p.reportGranted c = ({ p.withCommand c o.tag o.speed cmd with
          gate := { p.gate with
            pendingTurn := p.gate.pendingTurn.filter fun d => d != c
            orders := p.gate.orders.set c (some { whole with
              lastSeq := some p.link.seq, lastDone := false, pending := none }) } }).verdict c o.tag .passed none o.target.x o.target.x)
      ∧ (16 ≤ p.link.normal.length →
        p.reportGranted c = { p with gate := { p.gate with
          pendingTurn := if c ∈ p.gate.pendingTurn then p.gate.pendingTurn else p.gate.pendingTurn ++ [c]
          orders := p.gate.orders.set c (some { whole with pending := some cmd }) } }))
    ∧ ∀ (p : Part) (c : Fin 4) (o : Order) (g : Run) (why : Reason), p.activeOrder c = some o → p.run c = some g →
      (∀ x : Nat, ¬ p.StepsTo c o.target.x g x) →
      let short : Order := { o with permitted := p.craneX c, short := some why }
      (o.state = .partly →
        let clamped := (p.setOrder c (some short)).verdict c o.tag .clamped (some why) o.target.x (p.craneX c)
        p.reportRefused c why = if o.lastDone then clamped.endOrder c true none else clamped)
      ∧ (o.state = .waiting → p.reportRefused c why = (p.setOrder c (some short)).endOrder c false (some (.refused, some why)))

/-- A claim request in RUN of a crane with no claim before it, for the zone beyond one end of its grant: ZONE_BLOCKED, then
ZONE_FORBIDS_LOAD, then the zone at once when it is grantable, else a place at the tail of the zone's waiters; where no claim
faces it, WAIT (R25 to R28, R36, R47). A neighbour whose claim waits on a zone of this crane, while this crane's waits on one of the
neighbour's, faces it: of equal or lower class the requester yields, else the neighbour, whose claim is withdrawn and whose order
ends YIELDED; DEADLOCK names the two and the contested zone, and the one that yielded gives way (R36, R37). A crane that is permitted to,
without a stop cause and READY or MOVING, gives way when its target lies on the runway, NORMAL has room, and its span there lies in
its grant or in that and the next zone away from the other, which it then takes, when open: a MOVE_TO with tag 0 to just outside the
contested zone, and GIVE_WAY; otherwise nothing happens (R38, R39). -/
def Obligations.ClaimRequestsAreAnswered : Prop :=
  (∀ (p : Part) (c : Fin 4) (d : Direction) (cls : ClaimClass) (k : Fin 32),
    p.mgmt.mode = .run → p.claim c = none → p.beyond c d = some k.val →
    let z := p.arbiter.zones[k]
    let admits := z.loaded = true ∨ (p.hook c).loaded = false
    let free := z.grant = none ∧ z.hold = none ∧ z.bayHold.any = false
    (z.blocked = true → p.claimRequest c d cls = (p, .refused .zoneBlocked))
    ∧ (z.blocked = false → ¬ admits → p.claimRequest c d cls = (p, .refused .zoneForbidsLoad))
    ∧ (∀ r : Run, z.blocked = false → admits → free → p.run c = some r → r.lo ≤ r.hi →
      p.claimRequest c d cls = ({ p with arbiter :=
        { p.arbiter with
          zones := p.arbiter.zones.set k { z with grant := some c }
          runs := p.arbiter.runs.set c (some (match d with | .east => ⟨r.lo, r.hi + 1⟩ | .west => ⟨r.lo - 1, r.hi⟩)) } },
        .granted))
    ∧ (z.blocked = false → admits → ¬ free → p.facing c k = none →
      p.claimRequest c d cls = ({ p with arbiter :=
        { p.arbiter with
          zones := p.arbiter.zones.set k { z with waiters := z.waiters ++ [⟨c, cls, .order⟩] }
          claims := p.arbiter.claims.set c (some ⟨k, cls, .order⟩) } },
        .wait))
    ∧ ∀ (j : Fin 4) (cj : Claim), z.blocked = false → admits → p.facing c k = some j → p.claim j = some cj →
      let yields := fun (y other : Fin 4) (contested : Nat) =>
        ((((p.joined c k cls).withdrawClaim y).endOrder y false (some (.yielded, none))).notify .deadlock
          c.val j.val y.val contested).giveWay y other contested
      p.claimRequest c d cls = if cls.rank ≤ cj.cls.rank then (yields c j cj.zone, .yielded) else (yields j c k, .wait))
  ∧ (∀ (p : Part) (i j : Fin 4) (k : Fin 32), p.facing i k = some j ↔
      p.arbiter.zones[k].grant = some j ∧ j ≠ i ∧ ∃ cl : Claim, p.claim j = some cl ∧ (p.zone cl.zone).grant = some i)
  ∧ ∀ (p : Part) (y other : Fin 4) (zone : Fin 32),
    let e := p.entry y
    let target : Int := if y < other then (p.arbiter.zones[zone].start : Int) - e.eastExt - e.margin - 1
      else (p.zoneEnd zone : Int) + e.westExt + e.margin
    let ready := e.giveWay = true ∧ (p.latch y).causes.any = false
      ∧ (∃ t : Telegram, (p.record y).last = some t ∧ (t.drive = .ready ∨ t.drive = .moving))
      ∧ p.link.normal.length < 16
    (¬ ready → p.giveWay y other zone = p)
    ∧ (target < 0 ∨ (p.params.length : Int) ≤ target → p.giveWay y other zone = p)
    ∧ ∀ (x : Nat) (r : Run), ready → target = x → x < p.params.length → p.run y = some r →
      let (a, b) := p.zonesAt y x
      let moved := fun q : Part => (q.onLink (Link.pushNormal (.giveWay y) (craneStation y) .moveTo
        (commandPayload 0 ⟨.moveTo, x, p.craneY y, e.zSafe, 0⟩ (p.travelSpeed y x 0)))).notify .giveWay y.val x other.val zone.val
      (r.lo ≤ a → b ≤ r.hi → p.giveWay y other zone = moved p)
      ∧ (∀ k : Fin 32, y < other → b ≤ r.hi → a = k.val → k.val + 1 = r.lo → r.lo ≤ r.hi →
        p.giveWay y other zone = if p.Opens y p.arbiter.zones[k] then moved (p.regrant y r k.val r.hi) else p)
      ∧ (∀ k : Fin 32, ¬ y < other → r.lo ≤ a → b = k.val → k.val = r.hi + 1 → r.lo ≤ r.hi →
        p.giveWay y other zone = if p.Opens y p.arbiter.zones[k] then moved (p.regrant y r r.lo k.val) else p)
      ∧ ((if y < other then r.hi < b ∨ a + 1 < r.lo else a < r.lo ∨ r.hi + 1 < b) → p.giveWay y other zone = p)
end

