-- ==== Sys2Proof/Laws/State.lean ====
section
/-! SUPPORT. One lemma per field per update of the part: what an update leaves, and what a read after it gives. -/

namespace Sys2Proof.Machine

/-! ## setRecord -/

@[simp] theorem Part.setRecord_link (p : Part) (c : Fin 4) (r : CraneRecord) : (p.setRecord c r).link = p.link := rfl
@[simp] theorem Part.setRecord_params (p : Part) (c : Fin 4) (r : CraneRecord) : (p.setRecord c r).params = p.params := rfl
@[simp] theorem Part.setRecord_arbiter (p : Part) (c : Fin 4) (r : CraneRecord) : (p.setRecord c r).arbiter = p.arbiter := rfl
@[simp] theorem Part.setRecord_gate (p : Part) (c : Fin 4) (r : CraneRecord) : (p.setRecord c r).gate = p.gate := rfl
@[simp] theorem Part.setRecord_lines (p : Part) (c : Fin 4) (r : CraneRecord) : (p.setRecord c r).lines = p.lines := rfl
@[simp] theorem Part.setRecord_hooks (p : Part) (c : Fin 4) (r : CraneRecord) : (p.setRecord c r).hooks = p.hooks := rfl
@[simp] theorem Part.setRecord_slots (p : Part) (c : Fin 4) (r : CraneRecord) : (p.setRecord c r).slots = p.slots := rfl
@[simp] theorem Part.setRecord_engine (p : Part) (c : Fin 4) (r : CraneRecord) : (p.setRecord c r).engine = p.engine := rfl
@[simp] theorem Part.setRecord_bays (p : Part) (c : Fin 4) (r : CraneRecord) : (p.setRecord c r).bays = p.bays := rfl
@[simp] theorem Part.setRecord_mgmt (p : Part) (c : Fin 4) (r : CraneRecord) : (p.setRecord c r).mgmt = p.mgmt := rfl
@[simp] theorem Part.setRecord_inReset (p : Part) (c : Fin 4) (r : CraneRecord) : (p.setRecord c r).inReset = p.inReset := rfl
@[simp] theorem Part.setRecord_free (p : Part) (c : Fin 4) (r : CraneRecord) : (p.setRecord c r).free = p.free := rfl

/-! ## setZone -/

@[simp] theorem Part.setZone_link (p : Part) (k : Nat) (z : Zone) : (p.setZone k z).link = p.link := by
  unfold Part.setZone; split <;> rfl
@[simp] theorem Part.setZone_params (p : Part) (k : Nat) (z : Zone) : (p.setZone k z).params = p.params := by
  unfold Part.setZone; split <;> rfl
@[simp] theorem Part.setZone_tracker (p : Part) (k : Nat) (z : Zone) : (p.setZone k z).tracker = p.tracker := by
  unfold Part.setZone; split <;> rfl
@[simp] theorem Part.setZone_gate (p : Part) (k : Nat) (z : Zone) : (p.setZone k z).gate = p.gate := by
  unfold Part.setZone; split <;> rfl
@[simp] theorem Part.setZone_lines (p : Part) (k : Nat) (z : Zone) : (p.setZone k z).lines = p.lines := by
  unfold Part.setZone; split <;> rfl
@[simp] theorem Part.setZone_hooks (p : Part) (k : Nat) (z : Zone) : (p.setZone k z).hooks = p.hooks := by
  unfold Part.setZone; split <;> rfl
@[simp] theorem Part.setZone_slots (p : Part) (k : Nat) (z : Zone) : (p.setZone k z).slots = p.slots := by
  unfold Part.setZone; split <;> rfl
@[simp] theorem Part.setZone_engine (p : Part) (k : Nat) (z : Zone) : (p.setZone k z).engine = p.engine := by
  unfold Part.setZone; split <;> rfl
@[simp] theorem Part.setZone_bays (p : Part) (k : Nat) (z : Zone) : (p.setZone k z).bays = p.bays := by
  unfold Part.setZone; split <;> rfl
@[simp] theorem Part.setZone_mgmt (p : Part) (k : Nat) (z : Zone) : (p.setZone k z).mgmt = p.mgmt := by
  unfold Part.setZone; split <;> rfl
@[simp] theorem Part.setZone_inReset (p : Part) (k : Nat) (z : Zone) : (p.setZone k z).inReset = p.inReset := by
  unfold Part.setZone; split <;> rfl
@[simp] theorem Part.setZone_free (p : Part) (k : Nat) (z : Zone) : (p.setZone k z).free = p.free := by
  unfold Part.setZone; split <;> rfl

/-! ## setRun -/

@[simp] theorem Part.setRun_link (p : Part) (c : Fin 4) (r : Option Run) : (p.setRun c r).link = p.link := rfl
@[simp] theorem Part.setRun_params (p : Part) (c : Fin 4) (r : Option Run) : (p.setRun c r).params = p.params := rfl
@[simp] theorem Part.setRun_tracker (p : Part) (c : Fin 4) (r : Option Run) : (p.setRun c r).tracker = p.tracker := rfl
@[simp] theorem Part.setRun_gate (p : Part) (c : Fin 4) (r : Option Run) : (p.setRun c r).gate = p.gate := rfl
@[simp] theorem Part.setRun_lines (p : Part) (c : Fin 4) (r : Option Run) : (p.setRun c r).lines = p.lines := rfl
@[simp] theorem Part.setRun_hooks (p : Part) (c : Fin 4) (r : Option Run) : (p.setRun c r).hooks = p.hooks := rfl
@[simp] theorem Part.setRun_slots (p : Part) (c : Fin 4) (r : Option Run) : (p.setRun c r).slots = p.slots := rfl
@[simp] theorem Part.setRun_engine (p : Part) (c : Fin 4) (r : Option Run) : (p.setRun c r).engine = p.engine := rfl
@[simp] theorem Part.setRun_bays (p : Part) (c : Fin 4) (r : Option Run) : (p.setRun c r).bays = p.bays := rfl
@[simp] theorem Part.setRun_mgmt (p : Part) (c : Fin 4) (r : Option Run) : (p.setRun c r).mgmt = p.mgmt := rfl
@[simp] theorem Part.setRun_inReset (p : Part) (c : Fin 4) (r : Option Run) : (p.setRun c r).inReset = p.inReset := rfl
@[simp] theorem Part.setRun_free (p : Part) (c : Fin 4) (r : Option Run) : (p.setRun c r).free = p.free := rfl

/-! ## setClaim -/

@[simp] theorem Part.setClaim_link (p : Part) (c : Fin 4) (r : Option Claim) : (p.setClaim c r).link = p.link := rfl
@[simp] theorem Part.setClaim_params (p : Part) (c : Fin 4) (r : Option Claim) : (p.setClaim c r).params = p.params := rfl
@[simp] theorem Part.setClaim_tracker (p : Part) (c : Fin 4) (r : Option Claim) : (p.setClaim c r).tracker = p.tracker := rfl
@[simp] theorem Part.setClaim_gate (p : Part) (c : Fin 4) (r : Option Claim) : (p.setClaim c r).gate = p.gate := rfl
@[simp] theorem Part.setClaim_lines (p : Part) (c : Fin 4) (r : Option Claim) : (p.setClaim c r).lines = p.lines := rfl
@[simp] theorem Part.setClaim_hooks (p : Part) (c : Fin 4) (r : Option Claim) : (p.setClaim c r).hooks = p.hooks := rfl
@[simp] theorem Part.setClaim_slots (p : Part) (c : Fin 4) (r : Option Claim) : (p.setClaim c r).slots = p.slots := rfl
@[simp] theorem Part.setClaim_engine (p : Part) (c : Fin 4) (r : Option Claim) : (p.setClaim c r).engine = p.engine := rfl
@[simp] theorem Part.setClaim_bays (p : Part) (c : Fin 4) (r : Option Claim) : (p.setClaim c r).bays = p.bays := rfl
@[simp] theorem Part.setClaim_mgmt (p : Part) (c : Fin 4) (r : Option Claim) : (p.setClaim c r).mgmt = p.mgmt := rfl
@[simp] theorem Part.setClaim_inReset (p : Part) (c : Fin 4) (r : Option Claim) : (p.setClaim c r).inReset = p.inReset := rfl
@[simp] theorem Part.setClaim_free (p : Part) (c : Fin 4) (r : Option Claim) : (p.setClaim c r).free = p.free := rfl

/-! ## setOrder -/

@[simp] theorem Part.setOrder_link (p : Part) (c : Fin 4) (o : Option Order) : (p.setOrder c o).link = p.link := rfl
@[simp] theorem Part.setOrder_params (p : Part) (c : Fin 4) (o : Option Order) : (p.setOrder c o).params = p.params := rfl
@[simp] theorem Part.setOrder_tracker (p : Part) (c : Fin 4) (o : Option Order) : (p.setOrder c o).tracker = p.tracker := rfl
@[simp] theorem Part.setOrder_arbiter (p : Part) (c : Fin 4) (o : Option Order) : (p.setOrder c o).arbiter = p.arbiter := rfl
@[simp] theorem Part.setOrder_lines (p : Part) (c : Fin 4) (o : Option Order) : (p.setOrder c o).lines = p.lines := rfl
@[simp] theorem Part.setOrder_hooks (p : Part) (c : Fin 4) (o : Option Order) : (p.setOrder c o).hooks = p.hooks := rfl
@[simp] theorem Part.setOrder_slots (p : Part) (c : Fin 4) (o : Option Order) : (p.setOrder c o).slots = p.slots := rfl
@[simp] theorem Part.setOrder_engine (p : Part) (c : Fin 4) (o : Option Order) : (p.setOrder c o).engine = p.engine := rfl
@[simp] theorem Part.setOrder_bays (p : Part) (c : Fin 4) (o : Option Order) : (p.setOrder c o).bays = p.bays := rfl
@[simp] theorem Part.setOrder_mgmt (p : Part) (c : Fin 4) (o : Option Order) : (p.setOrder c o).mgmt = p.mgmt := rfl
@[simp] theorem Part.setOrder_inReset (p : Part) (c : Fin 4) (o : Option Order) : (p.setOrder c o).inReset = p.inReset := rfl
@[simp] theorem Part.setOrder_free (p : Part) (c : Fin 4) (o : Option Order) : (p.setOrder c o).free = p.free := rfl

/-! ## setLatch -/

@[simp] theorem Part.setLatch_link (p : Part) (c : Fin 4) (l : Latch) : (p.setLatch c l).link = p.link := rfl
@[simp] theorem Part.setLatch_params (p : Part) (c : Fin 4) (l : Latch) : (p.setLatch c l).params = p.params := rfl
@[simp] theorem Part.setLatch_tracker (p : Part) (c : Fin 4) (l : Latch) : (p.setLatch c l).tracker = p.tracker := rfl
@[simp] theorem Part.setLatch_arbiter (p : Part) (c : Fin 4) (l : Latch) : (p.setLatch c l).arbiter = p.arbiter := rfl
@[simp] theorem Part.setLatch_lines (p : Part) (c : Fin 4) (l : Latch) : (p.setLatch c l).lines = p.lines := rfl
@[simp] theorem Part.setLatch_hooks (p : Part) (c : Fin 4) (l : Latch) : (p.setLatch c l).hooks = p.hooks := rfl
@[simp] theorem Part.setLatch_slots (p : Part) (c : Fin 4) (l : Latch) : (p.setLatch c l).slots = p.slots := rfl
@[simp] theorem Part.setLatch_engine (p : Part) (c : Fin 4) (l : Latch) : (p.setLatch c l).engine = p.engine := rfl
@[simp] theorem Part.setLatch_bays (p : Part) (c : Fin 4) (l : Latch) : (p.setLatch c l).bays = p.bays := rfl
@[simp] theorem Part.setLatch_mgmt (p : Part) (c : Fin 4) (l : Latch) : (p.setLatch c l).mgmt = p.mgmt := rfl
@[simp] theorem Part.setLatch_inReset (p : Part) (c : Fin 4) (l : Latch) : (p.setLatch c l).inReset = p.inReset := rfl
@[simp] theorem Part.setLatch_free (p : Part) (c : Fin 4) (l : Latch) : (p.setLatch c l).free = p.free := rfl

/-! ## setHook -/

@[simp] theorem Part.setHook_link (p : Part) (c : Fin 4) (h : Hook) : (p.setHook c h).link = p.link := rfl
@[simp] theorem Part.setHook_params (p : Part) (c : Fin 4) (h : Hook) : (p.setHook c h).params = p.params := rfl
@[simp] theorem Part.setHook_tracker (p : Part) (c : Fin 4) (h : Hook) : (p.setHook c h).tracker = p.tracker := rfl
@[simp] theorem Part.setHook_arbiter (p : Part) (c : Fin 4) (h : Hook) : (p.setHook c h).arbiter = p.arbiter := rfl
@[simp] theorem Part.setHook_gate (p : Part) (c : Fin 4) (h : Hook) : (p.setHook c h).gate = p.gate := rfl
@[simp] theorem Part.setHook_lines (p : Part) (c : Fin 4) (h : Hook) : (p.setHook c h).lines = p.lines := rfl
@[simp] theorem Part.setHook_slots (p : Part) (c : Fin 4) (h : Hook) : (p.setHook c h).slots = p.slots := rfl
@[simp] theorem Part.setHook_engine (p : Part) (c : Fin 4) (h : Hook) : (p.setHook c h).engine = p.engine := rfl
@[simp] theorem Part.setHook_bays (p : Part) (c : Fin 4) (h : Hook) : (p.setHook c h).bays = p.bays := rfl
@[simp] theorem Part.setHook_mgmt (p : Part) (c : Fin 4) (h : Hook) : (p.setHook c h).mgmt = p.mgmt := rfl
@[simp] theorem Part.setHook_inReset (p : Part) (c : Fin 4) (h : Hook) : (p.setHook c h).inReset = p.inReset := rfl
@[simp] theorem Part.setHook_free (p : Part) (c : Fin 4) (h : Hook) : (p.setHook c h).free = p.free := rfl

/-! ## setBay -/

@[simp] theorem Part.setBay_link (p : Part) (b : Fin 6) (r : BayRecord) : (p.setBay b r).link = p.link := rfl
@[simp] theorem Part.setBay_params (p : Part) (b : Fin 6) (r : BayRecord) : (p.setBay b r).params = p.params := rfl
@[simp] theorem Part.setBay_tracker (p : Part) (b : Fin 6) (r : BayRecord) : (p.setBay b r).tracker = p.tracker := rfl
@[simp] theorem Part.setBay_arbiter (p : Part) (b : Fin 6) (r : BayRecord) : (p.setBay b r).arbiter = p.arbiter := rfl
@[simp] theorem Part.setBay_gate (p : Part) (b : Fin 6) (r : BayRecord) : (p.setBay b r).gate = p.gate := rfl
@[simp] theorem Part.setBay_lines (p : Part) (b : Fin 6) (r : BayRecord) : (p.setBay b r).lines = p.lines := rfl
@[simp] theorem Part.setBay_hooks (p : Part) (b : Fin 6) (r : BayRecord) : (p.setBay b r).hooks = p.hooks := rfl
@[simp] theorem Part.setBay_slots (p : Part) (b : Fin 6) (r : BayRecord) : (p.setBay b r).slots = p.slots := rfl
@[simp] theorem Part.setBay_engine (p : Part) (b : Fin 6) (r : BayRecord) : (p.setBay b r).engine = p.engine := rfl
@[simp] theorem Part.setBay_mgmt (p : Part) (b : Fin 6) (r : BayRecord) : (p.setBay b r).mgmt = p.mgmt := rfl
@[simp] theorem Part.setBay_inReset (p : Part) (b : Fin 6) (r : BayRecord) : (p.setBay b r).inReset = p.inReset := rfl
@[simp] theorem Part.setBay_free (p : Part) (b : Fin 6) (r : BayRecord) : (p.setBay b r).free = p.free := rfl

/-! ## setBayEntry -/

@[simp] theorem Part.setBayEntry_link (p : Part) (b : Fin 6) (e : BayEntry) : (p.setBayEntry b e).link = p.link := rfl
@[simp] theorem Part.setBayEntry_params (p : Part) (b : Fin 6) (e : BayEntry) : (p.setBayEntry b e).params = p.params := rfl
@[simp] theorem Part.setBayEntry_tracker (p : Part) (b : Fin 6) (e : BayEntry) : (p.setBayEntry b e).tracker = p.tracker := rfl
@[simp] theorem Part.setBayEntry_arbiter (p : Part) (b : Fin 6) (e : BayEntry) : (p.setBayEntry b e).arbiter = p.arbiter := rfl
@[simp] theorem Part.setBayEntry_gate (p : Part) (b : Fin 6) (e : BayEntry) : (p.setBayEntry b e).gate = p.gate := rfl
@[simp] theorem Part.setBayEntry_lines (p : Part) (b : Fin 6) (e : BayEntry) : (p.setBayEntry b e).lines = p.lines := rfl
@[simp] theorem Part.setBayEntry_hooks (p : Part) (b : Fin 6) (e : BayEntry) : (p.setBayEntry b e).hooks = p.hooks := rfl
@[simp] theorem Part.setBayEntry_slots (p : Part) (b : Fin 6) (e : BayEntry) : (p.setBayEntry b e).slots = p.slots := rfl
@[simp] theorem Part.setBayEntry_engine (p : Part) (b : Fin 6) (e : BayEntry) : (p.setBayEntry b e).engine = p.engine := rfl
@[simp] theorem Part.setBayEntry_mgmt (p : Part) (b : Fin 6) (e : BayEntry) : (p.setBayEntry b e).mgmt = p.mgmt := rfl
@[simp] theorem Part.setBayEntry_inReset (p : Part) (b : Fin 6) (e : BayEntry) : (p.setBayEntry b e).inReset = p.inReset := rfl
@[simp] theorem Part.setBayEntry_free (p : Part) (b : Fin 6) (e : BayEntry) : (p.setBayEntry b e).free = p.free := rfl

/-! ## setEntry -/

@[simp] theorem Part.setEntry_link (p : Part) (c : Fin 4) (e : CraneEntry) : (p.setEntry c e).link = p.link := rfl
@[simp] theorem Part.setEntry_params (p : Part) (c : Fin 4) (e : CraneEntry) : (p.setEntry c e).params = p.params := rfl
@[simp] theorem Part.setEntry_arbiter (p : Part) (c : Fin 4) (e : CraneEntry) : (p.setEntry c e).arbiter = p.arbiter := rfl
@[simp] theorem Part.setEntry_gate (p : Part) (c : Fin 4) (e : CraneEntry) : (p.setEntry c e).gate = p.gate := rfl
@[simp] theorem Part.setEntry_lines (p : Part) (c : Fin 4) (e : CraneEntry) : (p.setEntry c e).lines = p.lines := rfl
@[simp] theorem Part.setEntry_hooks (p : Part) (c : Fin 4) (e : CraneEntry) : (p.setEntry c e).hooks = p.hooks := rfl
@[simp] theorem Part.setEntry_slots (p : Part) (c : Fin 4) (e : CraneEntry) : (p.setEntry c e).slots = p.slots := rfl
@[simp] theorem Part.setEntry_engine (p : Part) (c : Fin 4) (e : CraneEntry) : (p.setEntry c e).engine = p.engine := rfl
@[simp] theorem Part.setEntry_bays (p : Part) (c : Fin 4) (e : CraneEntry) : (p.setEntry c e).bays = p.bays := rfl
@[simp] theorem Part.setEntry_mgmt (p : Part) (c : Fin 4) (e : CraneEntry) : (p.setEntry c e).mgmt = p.mgmt := rfl
@[simp] theorem Part.setEntry_inReset (p : Part) (c : Fin 4) (e : CraneEntry) : (p.setEntry c e).inReset = p.inReset := rfl
@[simp] theorem Part.setEntry_free (p : Part) (c : Fin 4) (e : CraneEntry) : (p.setEntry c e).free = p.free := rfl

/-! ## setDeferred -/

@[simp] theorem Part.setDeferred_link (p : Part) (c : Fin 4) (d : Option Deferred) : (p.setDeferred c d).link = p.link := rfl
@[simp] theorem Part.setDeferred_params (p : Part) (c : Fin 4) (d : Option Deferred) : (p.setDeferred c d).params = p.params := rfl
@[simp] theorem Part.setDeferred_tracker (p : Part) (c : Fin 4) (d : Option Deferred) : (p.setDeferred c d).tracker = p.tracker := rfl
@[simp] theorem Part.setDeferred_arbiter (p : Part) (c : Fin 4) (d : Option Deferred) : (p.setDeferred c d).arbiter = p.arbiter := rfl
@[simp] theorem Part.setDeferred_gate (p : Part) (c : Fin 4) (d : Option Deferred) : (p.setDeferred c d).gate = p.gate := rfl
@[simp] theorem Part.setDeferred_lines (p : Part) (c : Fin 4) (d : Option Deferred) : (p.setDeferred c d).lines = p.lines := rfl
@[simp] theorem Part.setDeferred_hooks (p : Part) (c : Fin 4) (d : Option Deferred) : (p.setDeferred c d).hooks = p.hooks := rfl
@[simp] theorem Part.setDeferred_slots (p : Part) (c : Fin 4) (d : Option Deferred) : (p.setDeferred c d).slots = p.slots := rfl
@[simp] theorem Part.setDeferred_bays (p : Part) (c : Fin 4) (d : Option Deferred) : (p.setDeferred c d).bays = p.bays := rfl
@[simp] theorem Part.setDeferred_mgmt (p : Part) (c : Fin 4) (d : Option Deferred) : (p.setDeferred c d).mgmt = p.mgmt := rfl
@[simp] theorem Part.setDeferred_inReset (p : Part) (c : Fin 4) (d : Option Deferred) : (p.setDeferred c d).inReset = p.inReset := rfl
@[simp] theorem Part.setDeferred_free (p : Part) (c : Fin 4) (d : Option Deferred) : (p.setDeferred c d).free = p.free := rfl

/-! ## setQueue -/

@[simp] theorem Part.setQueue_link (p : Part) (q : List Request) : (p.setQueue q).link = p.link := rfl
@[simp] theorem Part.setQueue_params (p : Part) (q : List Request) : (p.setQueue q).params = p.params := rfl
@[simp] theorem Part.setQueue_tracker (p : Part) (q : List Request) : (p.setQueue q).tracker = p.tracker := rfl
@[simp] theorem Part.setQueue_arbiter (p : Part) (q : List Request) : (p.setQueue q).arbiter = p.arbiter := rfl
@[simp] theorem Part.setQueue_gate (p : Part) (q : List Request) : (p.setQueue q).gate = p.gate := rfl
@[simp] theorem Part.setQueue_lines (p : Part) (q : List Request) : (p.setQueue q).lines = p.lines := rfl
@[simp] theorem Part.setQueue_hooks (p : Part) (q : List Request) : (p.setQueue q).hooks = p.hooks := rfl
@[simp] theorem Part.setQueue_slots (p : Part) (q : List Request) : (p.setQueue q).slots = p.slots := rfl
@[simp] theorem Part.setQueue_bays (p : Part) (q : List Request) : (p.setQueue q).bays = p.bays := rfl
@[simp] theorem Part.setQueue_mgmt (p : Part) (q : List Request) : (p.setQueue q).mgmt = p.mgmt := rfl
@[simp] theorem Part.setQueue_inReset (p : Part) (q : List Request) : (p.setQueue q).inReset = p.inReset := rfl
@[simp] theorem Part.setQueue_free (p : Part) (q : List Request) : (p.setQueue q).free = p.free := rfl

/-! ## onLink -/

@[simp] theorem Part.onLink_params (p : Part) (f : Link → Link) : (p.onLink f).params = p.params := rfl
@[simp] theorem Part.onLink_tracker (p : Part) (f : Link → Link) : (p.onLink f).tracker = p.tracker := rfl
@[simp] theorem Part.onLink_arbiter (p : Part) (f : Link → Link) : (p.onLink f).arbiter = p.arbiter := rfl
@[simp] theorem Part.onLink_gate (p : Part) (f : Link → Link) : (p.onLink f).gate = p.gate := rfl
@[simp] theorem Part.onLink_lines (p : Part) (f : Link → Link) : (p.onLink f).lines = p.lines := rfl
@[simp] theorem Part.onLink_hooks (p : Part) (f : Link → Link) : (p.onLink f).hooks = p.hooks := rfl
@[simp] theorem Part.onLink_slots (p : Part) (f : Link → Link) : (p.onLink f).slots = p.slots := rfl
@[simp] theorem Part.onLink_engine (p : Part) (f : Link → Link) : (p.onLink f).engine = p.engine := rfl
@[simp] theorem Part.onLink_bays (p : Part) (f : Link → Link) : (p.onLink f).bays = p.bays := rfl
@[simp] theorem Part.onLink_mgmt (p : Part) (f : Link → Link) : (p.onLink f).mgmt = p.mgmt := rfl
@[simp] theorem Part.onLink_inReset (p : Part) (f : Link → Link) : (p.onLink f).inReset = p.inReset := rfl
@[simp] theorem Part.onLink_free (p : Part) (f : Link → Link) : (p.onLink f).free = p.free := rfl

/-! ## onSlots -/

@[simp] theorem Part.onSlots_link (p : Part) (f : SlotMap → SlotMap) : (p.onSlots f).link = p.link := rfl
@[simp] theorem Part.onSlots_params (p : Part) (f : SlotMap → SlotMap) : (p.onSlots f).params = p.params := rfl
@[simp] theorem Part.onSlots_tracker (p : Part) (f : SlotMap → SlotMap) : (p.onSlots f).tracker = p.tracker := rfl
@[simp] theorem Part.onSlots_arbiter (p : Part) (f : SlotMap → SlotMap) : (p.onSlots f).arbiter = p.arbiter := rfl
@[simp] theorem Part.onSlots_gate (p : Part) (f : SlotMap → SlotMap) : (p.onSlots f).gate = p.gate := rfl
@[simp] theorem Part.onSlots_lines (p : Part) (f : SlotMap → SlotMap) : (p.onSlots f).lines = p.lines := rfl
@[simp] theorem Part.onSlots_hooks (p : Part) (f : SlotMap → SlotMap) : (p.onSlots f).hooks = p.hooks := rfl
@[simp] theorem Part.onSlots_engine (p : Part) (f : SlotMap → SlotMap) : (p.onSlots f).engine = p.engine := rfl
@[simp] theorem Part.onSlots_bays (p : Part) (f : SlotMap → SlotMap) : (p.onSlots f).bays = p.bays := rfl
@[simp] theorem Part.onSlots_mgmt (p : Part) (f : SlotMap → SlotMap) : (p.onSlots f).mgmt = p.mgmt := rfl
@[simp] theorem Part.onSlots_inReset (p : Part) (f : SlotMap → SlotMap) : (p.onSlots f).inReset = p.inReset := rfl
@[simp] theorem Part.onSlots_free (p : Part) (f : SlotMap → SlotMap) : (p.onSlots f).free = p.free := rfl

/-! ## setRequests -/

@[simp] theorem Part.setRequests_link (p : Part) (ts : List SlotTask) : (p.setRequests ts).link = p.link := rfl
@[simp] theorem Part.setRequests_params (p : Part) (ts : List SlotTask) : (p.setRequests ts).params = p.params := rfl
@[simp] theorem Part.setRequests_tracker (p : Part) (ts : List SlotTask) : (p.setRequests ts).tracker = p.tracker := rfl
@[simp] theorem Part.setRequests_arbiter (p : Part) (ts : List SlotTask) : (p.setRequests ts).arbiter = p.arbiter := rfl
@[simp] theorem Part.setRequests_gate (p : Part) (ts : List SlotTask) : (p.setRequests ts).gate = p.gate := rfl
@[simp] theorem Part.setRequests_lines (p : Part) (ts : List SlotTask) : (p.setRequests ts).lines = p.lines := rfl
@[simp] theorem Part.setRequests_hooks (p : Part) (ts : List SlotTask) : (p.setRequests ts).hooks = p.hooks := rfl
@[simp] theorem Part.setRequests_engine (p : Part) (ts : List SlotTask) : (p.setRequests ts).engine = p.engine := rfl
@[simp] theorem Part.setRequests_bays (p : Part) (ts : List SlotTask) : (p.setRequests ts).bays = p.bays := rfl
@[simp] theorem Part.setRequests_mgmt (p : Part) (ts : List SlotTask) : (p.setRequests ts).mgmt = p.mgmt := rfl
@[simp] theorem Part.setRequests_inReset (p : Part) (ts : List SlotTask) : (p.setRequests ts).inReset = p.inReset := rfl
@[simp] theorem Part.setRequests_free (p : Part) (ts : List SlotTask) : (p.setRequests ts).free = p.free := rfl

/-! ## commandStop -/

@[simp] theorem Part.commandStop_link (p : Part) (c : Fin 4) (on : Bool) : (p.commandStop c on).link = p.link := rfl
@[simp] theorem Part.commandStop_params (p : Part) (c : Fin 4) (on : Bool) : (p.commandStop c on).params = p.params := rfl
@[simp] theorem Part.commandStop_tracker (p : Part) (c : Fin 4) (on : Bool) : (p.commandStop c on).tracker = p.tracker := rfl
@[simp] theorem Part.commandStop_arbiter (p : Part) (c : Fin 4) (on : Bool) : (p.commandStop c on).arbiter = p.arbiter := rfl
@[simp] theorem Part.commandStop_gate (p : Part) (c : Fin 4) (on : Bool) : (p.commandStop c on).gate = p.gate := rfl
@[simp] theorem Part.commandStop_hooks (p : Part) (c : Fin 4) (on : Bool) : (p.commandStop c on).hooks = p.hooks := rfl
@[simp] theorem Part.commandStop_slots (p : Part) (c : Fin 4) (on : Bool) : (p.commandStop c on).slots = p.slots := rfl
@[simp] theorem Part.commandStop_engine (p : Part) (c : Fin 4) (on : Bool) : (p.commandStop c on).engine = p.engine := rfl
@[simp] theorem Part.commandStop_bays (p : Part) (c : Fin 4) (on : Bool) : (p.commandStop c on).bays = p.bays := rfl
@[simp] theorem Part.commandStop_mgmt (p : Part) (c : Fin 4) (on : Bool) : (p.commandStop c on).mgmt = p.mgmt := rfl
@[simp] theorem Part.commandStop_inReset (p : Part) (c : Fin 4) (on : Bool) : (p.commandStop c on).inReset = p.inReset := rfl
@[simp] theorem Part.commandStop_free (p : Part) (c : Fin 4) (on : Bool) : (p.commandStop c on).free = p.free := rfl

/-! ## commandLamps -/

@[simp] theorem Part.commandLamps_link (p : Part) (b : Fin 6) (g r : Bool) : (p.commandLamps b g r).link = p.link := rfl
@[simp] theorem Part.commandLamps_params (p : Part) (b : Fin 6) (g r : Bool) : (p.commandLamps b g r).params = p.params := rfl
@[simp] theorem Part.commandLamps_tracker (p : Part) (b : Fin 6) (g r : Bool) : (p.commandLamps b g r).tracker = p.tracker := rfl
@[simp] theorem Part.commandLamps_arbiter (p : Part) (b : Fin 6) (g r : Bool) : (p.commandLamps b g r).arbiter = p.arbiter := rfl
@[simp] theorem Part.commandLamps_gate (p : Part) (b : Fin 6) (g r : Bool) : (p.commandLamps b g r).gate = p.gate := rfl
@[simp] theorem Part.commandLamps_hooks (p : Part) (b : Fin 6) (g r : Bool) : (p.commandLamps b g r).hooks = p.hooks := rfl
@[simp] theorem Part.commandLamps_slots (p : Part) (b : Fin 6) (g r : Bool) : (p.commandLamps b g r).slots = p.slots := rfl
@[simp] theorem Part.commandLamps_engine (p : Part) (b : Fin 6) (g r : Bool) : (p.commandLamps b g r).engine = p.engine := rfl
@[simp] theorem Part.commandLamps_bays (p : Part) (b : Fin 6) (g r : Bool) : (p.commandLamps b g r).bays = p.bays := rfl
@[simp] theorem Part.commandLamps_mgmt (p : Part) (b : Fin 6) (g r : Bool) : (p.commandLamps b g r).mgmt = p.mgmt := rfl
@[simp] theorem Part.commandLamps_inReset (p : Part) (b : Fin 6) (g r : Bool) : (p.commandLamps b g r).inReset = p.inReset := rfl
@[simp] theorem Part.commandLamps_free (p : Part) (b : Fin 6) (g r : Bool) : (p.commandLamps b g r).free = p.free := rfl

/-! ## setOutput -/

@[simp] theorem Part.setOutput_link (p : Part) (n : Nat) (o : OutLine) : (p.setOutput n o).link = p.link := rfl
@[simp] theorem Part.setOutput_params (p : Part) (n : Nat) (o : OutLine) : (p.setOutput n o).params = p.params := rfl
@[simp] theorem Part.setOutput_tracker (p : Part) (n : Nat) (o : OutLine) : (p.setOutput n o).tracker = p.tracker := rfl
@[simp] theorem Part.setOutput_arbiter (p : Part) (n : Nat) (o : OutLine) : (p.setOutput n o).arbiter = p.arbiter := rfl
@[simp] theorem Part.setOutput_gate (p : Part) (n : Nat) (o : OutLine) : (p.setOutput n o).gate = p.gate := rfl
@[simp] theorem Part.setOutput_hooks (p : Part) (n : Nat) (o : OutLine) : (p.setOutput n o).hooks = p.hooks := rfl
@[simp] theorem Part.setOutput_slots (p : Part) (n : Nat) (o : OutLine) : (p.setOutput n o).slots = p.slots := rfl
@[simp] theorem Part.setOutput_engine (p : Part) (n : Nat) (o : OutLine) : (p.setOutput n o).engine = p.engine := rfl
@[simp] theorem Part.setOutput_bays (p : Part) (n : Nat) (o : OutLine) : (p.setOutput n o).bays = p.bays := rfl
@[simp] theorem Part.setOutput_mgmt (p : Part) (n : Nat) (o : OutLine) : (p.setOutput n o).mgmt = p.mgmt := rfl
@[simp] theorem Part.setOutput_inReset (p : Part) (n : Nat) (o : OutLine) : (p.setOutput n o).inReset = p.inReset := rfl
@[simp] theorem Part.setOutput_free (p : Part) (n : Nat) (o : OutLine) : (p.setOutput n o).free = p.free := rfl

/-! ## clearFault -/

@[simp] theorem Part.clearFault_link (p : Part) (n : Nat) : (p.clearFault n).link = p.link := rfl
@[simp] theorem Part.clearFault_params (p : Part) (n : Nat) : (p.clearFault n).params = p.params := rfl
@[simp] theorem Part.clearFault_tracker (p : Part) (n : Nat) : (p.clearFault n).tracker = p.tracker := rfl
@[simp] theorem Part.clearFault_arbiter (p : Part) (n : Nat) : (p.clearFault n).arbiter = p.arbiter := rfl
@[simp] theorem Part.clearFault_gate (p : Part) (n : Nat) : (p.clearFault n).gate = p.gate := rfl
@[simp] theorem Part.clearFault_hooks (p : Part) (n : Nat) : (p.clearFault n).hooks = p.hooks := rfl
@[simp] theorem Part.clearFault_slots (p : Part) (n : Nat) : (p.clearFault n).slots = p.slots := rfl
@[simp] theorem Part.clearFault_engine (p : Part) (n : Nat) : (p.clearFault n).engine = p.engine := rfl
@[simp] theorem Part.clearFault_bays (p : Part) (n : Nat) : (p.clearFault n).bays = p.bays := rfl
@[simp] theorem Part.clearFault_mgmt (p : Part) (n : Nat) : (p.clearFault n).mgmt = p.mgmt := rfl
@[simp] theorem Part.clearFault_inReset (p : Part) (n : Nat) : (p.clearFault n).inReset = p.inReset := rfl
@[simp] theorem Part.clearFault_free (p : Part) (n : Nat) : (p.clearFault n).free = p.free := rfl

/-! ## markPair -/

@[simp] theorem Part.markPair_link (p : Part) (w : Fin 4) (on : Bool) : (p.markPair w on).link = p.link := rfl
@[simp] theorem Part.markPair_params (p : Part) (w : Fin 4) (on : Bool) : (p.markPair w on).params = p.params := rfl
@[simp] theorem Part.markPair_arbiter (p : Part) (w : Fin 4) (on : Bool) : (p.markPair w on).arbiter = p.arbiter := rfl
@[simp] theorem Part.markPair_gate (p : Part) (w : Fin 4) (on : Bool) : (p.markPair w on).gate = p.gate := rfl
@[simp] theorem Part.markPair_lines (p : Part) (w : Fin 4) (on : Bool) : (p.markPair w on).lines = p.lines := rfl
@[simp] theorem Part.markPair_hooks (p : Part) (w : Fin 4) (on : Bool) : (p.markPair w on).hooks = p.hooks := rfl
@[simp] theorem Part.markPair_slots (p : Part) (w : Fin 4) (on : Bool) : (p.markPair w on).slots = p.slots := rfl
@[simp] theorem Part.markPair_engine (p : Part) (w : Fin 4) (on : Bool) : (p.markPair w on).engine = p.engine := rfl
@[simp] theorem Part.markPair_bays (p : Part) (w : Fin 4) (on : Bool) : (p.markPair w on).bays = p.bays := rfl
@[simp] theorem Part.markPair_mgmt (p : Part) (w : Fin 4) (on : Bool) : (p.markPair w on).mgmt = p.mgmt := rfl
@[simp] theorem Part.markPair_inReset (p : Part) (w : Fin 4) (on : Bool) : (p.markPair w on).inReset = p.inReset := rfl
@[simp] theorem Part.markPair_free (p : Part) (w : Fin 4) (on : Bool) : (p.markPair w on).free = p.free := rfl

/-! ## onPlan -/

@[simp] theorem Part.onPlan_link (p : Part) (b : Fin 6) (f : Plan → Plan) : (p.onPlan b f).link = p.link := rfl
@[simp] theorem Part.onPlan_params (p : Part) (b : Fin 6) (f : Plan → Plan) : (p.onPlan b f).params = p.params := rfl
@[simp] theorem Part.onPlan_tracker (p : Part) (b : Fin 6) (f : Plan → Plan) : (p.onPlan b f).tracker = p.tracker := rfl
@[simp] theorem Part.onPlan_arbiter (p : Part) (b : Fin 6) (f : Plan → Plan) : (p.onPlan b f).arbiter = p.arbiter := rfl
@[simp] theorem Part.onPlan_gate (p : Part) (b : Fin 6) (f : Plan → Plan) : (p.onPlan b f).gate = p.gate := rfl
@[simp] theorem Part.onPlan_lines (p : Part) (b : Fin 6) (f : Plan → Plan) : (p.onPlan b f).lines = p.lines := rfl
@[simp] theorem Part.onPlan_hooks (p : Part) (b : Fin 6) (f : Plan → Plan) : (p.onPlan b f).hooks = p.hooks := rfl
@[simp] theorem Part.onPlan_slots (p : Part) (b : Fin 6) (f : Plan → Plan) : (p.onPlan b f).slots = p.slots := rfl
@[simp] theorem Part.onPlan_engine (p : Part) (b : Fin 6) (f : Plan → Plan) : (p.onPlan b f).engine = p.engine := rfl
@[simp] theorem Part.onPlan_mgmt (p : Part) (b : Fin 6) (f : Plan → Plan) : (p.onPlan b f).mgmt = p.mgmt := rfl
@[simp] theorem Part.onPlan_inReset (p : Part) (b : Fin 6) (f : Plan → Plan) : (p.onPlan b f).inReset = p.inReset := rfl
@[simp] theorem Part.onPlan_free (p : Part) (b : Fin 6) (f : Plan → Plan) : (p.onPlan b f).free = p.free := rfl

/-! ## dropCause -/

@[simp] theorem Part.dropCause_link (p : Part) (c : Fin 4) (x : StopCause) : (p.dropCause c x).link = p.link := rfl
@[simp] theorem Part.dropCause_params (p : Part) (c : Fin 4) (x : StopCause) : (p.dropCause c x).params = p.params := rfl
@[simp] theorem Part.dropCause_tracker (p : Part) (c : Fin 4) (x : StopCause) : (p.dropCause c x).tracker = p.tracker := rfl
@[simp] theorem Part.dropCause_arbiter (p : Part) (c : Fin 4) (x : StopCause) : (p.dropCause c x).arbiter = p.arbiter := rfl
@[simp] theorem Part.dropCause_lines (p : Part) (c : Fin 4) (x : StopCause) : (p.dropCause c x).lines = p.lines := rfl
@[simp] theorem Part.dropCause_hooks (p : Part) (c : Fin 4) (x : StopCause) : (p.dropCause c x).hooks = p.hooks := rfl
@[simp] theorem Part.dropCause_slots (p : Part) (c : Fin 4) (x : StopCause) : (p.dropCause c x).slots = p.slots := rfl
@[simp] theorem Part.dropCause_engine (p : Part) (c : Fin 4) (x : StopCause) : (p.dropCause c x).engine = p.engine := rfl
@[simp] theorem Part.dropCause_bays (p : Part) (c : Fin 4) (x : StopCause) : (p.dropCause c x).bays = p.bays := rfl
@[simp] theorem Part.dropCause_mgmt (p : Part) (c : Fin 4) (x : StopCause) : (p.dropCause c x).mgmt = p.mgmt := rfl
@[simp] theorem Part.dropCause_inReset (p : Part) (c : Fin 4) (x : StopCause) : (p.dropCause c x).inReset = p.inReset := rfl
@[simp] theorem Part.dropCause_free (p : Part) (c : Fin 4) (x : StopCause) : (p.dropCause c x).free = p.free := rfl

/-! ## tick -/

@[simp] theorem Part.tick_link (p : Part) : (p.tick).link = p.link := rfl
@[simp] theorem Part.tick_params (p : Part) : (p.tick).params = p.params := rfl
@[simp] theorem Part.tick_tracker (p : Part) : (p.tick).tracker = p.tracker := rfl
@[simp] theorem Part.tick_arbiter (p : Part) : (p.tick).arbiter = p.arbiter := rfl
@[simp] theorem Part.tick_gate (p : Part) : (p.tick).gate = p.gate := rfl
@[simp] theorem Part.tick_lines (p : Part) : (p.tick).lines = p.lines := rfl
@[simp] theorem Part.tick_hooks (p : Part) : (p.tick).hooks = p.hooks := rfl
@[simp] theorem Part.tick_slots (p : Part) : (p.tick).slots = p.slots := rfl
@[simp] theorem Part.tick_engine (p : Part) : (p.tick).engine = p.engine := rfl
@[simp] theorem Part.tick_bays (p : Part) : (p.tick).bays = p.bays := rfl
@[simp] theorem Part.tick_inReset (p : Part) : (p.tick).inReset = p.inReset := rfl
@[simp] theorem Part.tick_free (p : Part) : (p.tick).free = p.free := rfl

/-! ## dropSup -/

@[simp] theorem Part.dropSup_params (p : Part) : (p.dropSup).params = p.params := rfl
@[simp] theorem Part.dropSup_tracker (p : Part) : (p.dropSup).tracker = p.tracker := rfl
@[simp] theorem Part.dropSup_arbiter (p : Part) : (p.dropSup).arbiter = p.arbiter := rfl
@[simp] theorem Part.dropSup_gate (p : Part) : (p.dropSup).gate = p.gate := rfl
@[simp] theorem Part.dropSup_lines (p : Part) : (p.dropSup).lines = p.lines := rfl
@[simp] theorem Part.dropSup_hooks (p : Part) : (p.dropSup).hooks = p.hooks := rfl
@[simp] theorem Part.dropSup_slots (p : Part) : (p.dropSup).slots = p.slots := rfl
@[simp] theorem Part.dropSup_engine (p : Part) : (p.dropSup).engine = p.engine := rfl
@[simp] theorem Part.dropSup_bays (p : Part) : (p.dropSup).bays = p.bays := rfl
@[simp] theorem Part.dropSup_mgmt (p : Part) : (p.dropSup).mgmt = p.mgmt := rfl
@[simp] theorem Part.dropSup_inReset (p : Part) : (p.dropSup).inReset = p.inReset := rfl
@[simp] theorem Part.dropSup_free (p : Part) : (p.dropSup).free = p.free := rfl

/-! ## judgeHead -/

@[simp] theorem Part.judgeHead_params (p : Part) : (p.judgeHead).params = p.params := rfl
@[simp] theorem Part.judgeHead_tracker (p : Part) : (p.judgeHead).tracker = p.tracker := rfl
@[simp] theorem Part.judgeHead_arbiter (p : Part) : (p.judgeHead).arbiter = p.arbiter := rfl
@[simp] theorem Part.judgeHead_gate (p : Part) : (p.judgeHead).gate = p.gate := rfl
@[simp] theorem Part.judgeHead_lines (p : Part) : (p.judgeHead).lines = p.lines := rfl
@[simp] theorem Part.judgeHead_hooks (p : Part) : (p.judgeHead).hooks = p.hooks := rfl
@[simp] theorem Part.judgeHead_slots (p : Part) : (p.judgeHead).slots = p.slots := rfl
@[simp] theorem Part.judgeHead_engine (p : Part) : (p.judgeHead).engine = p.engine := rfl
@[simp] theorem Part.judgeHead_bays (p : Part) : (p.judgeHead).bays = p.bays := rfl
@[simp] theorem Part.judgeHead_mgmt (p : Part) : (p.judgeHead).mgmt = p.mgmt := rfl
@[simp] theorem Part.judgeHead_inReset (p : Part) : (p.judgeHead).inReset = p.inReset := rfl
@[simp] theorem Part.judgeHead_free (p : Part) : (p.judgeHead).free = p.free := rfl

/-! ## dropCrane -/

@[simp] theorem Part.dropCrane_params (p : Part) : (p.dropCrane).params = p.params := rfl
@[simp] theorem Part.dropCrane_tracker (p : Part) : (p.dropCrane).tracker = p.tracker := rfl
@[simp] theorem Part.dropCrane_arbiter (p : Part) : (p.dropCrane).arbiter = p.arbiter := rfl
@[simp] theorem Part.dropCrane_gate (p : Part) : (p.dropCrane).gate = p.gate := rfl
@[simp] theorem Part.dropCrane_lines (p : Part) : (p.dropCrane).lines = p.lines := rfl
@[simp] theorem Part.dropCrane_hooks (p : Part) : (p.dropCrane).hooks = p.hooks := rfl
@[simp] theorem Part.dropCrane_slots (p : Part) : (p.dropCrane).slots = p.slots := rfl
@[simp] theorem Part.dropCrane_engine (p : Part) : (p.dropCrane).engine = p.engine := rfl
@[simp] theorem Part.dropCrane_bays (p : Part) : (p.dropCrane).bays = p.bays := rfl
@[simp] theorem Part.dropCrane_mgmt (p : Part) : (p.dropCrane).mgmt = p.mgmt := rfl
@[simp] theorem Part.dropCrane_inReset (p : Part) : (p.dropCrane).inReset = p.inReset := rfl
@[simp] theorem Part.dropCrane_free (p : Part) : (p.dropCrane).free = p.free := rfl

/-! ## clearCrane -/

@[simp] theorem Part.clearCrane_link (p : Part) (c : Fin 4) : (p.clearCrane c).link = p.link := rfl
@[simp] theorem Part.clearCrane_params (p : Part) (c : Fin 4) : (p.clearCrane c).params = p.params := rfl
@[simp] theorem Part.clearCrane_arbiter (p : Part) (c : Fin 4) : (p.clearCrane c).arbiter = p.arbiter := rfl
@[simp] theorem Part.clearCrane_gate (p : Part) (c : Fin 4) : (p.clearCrane c).gate = p.gate := rfl
@[simp] theorem Part.clearCrane_lines (p : Part) (c : Fin 4) : (p.clearCrane c).lines = p.lines := rfl
@[simp] theorem Part.clearCrane_hooks (p : Part) (c : Fin 4) : (p.clearCrane c).hooks = p.hooks := rfl
@[simp] theorem Part.clearCrane_slots (p : Part) (c : Fin 4) : (p.clearCrane c).slots = p.slots := rfl
@[simp] theorem Part.clearCrane_engine (p : Part) (c : Fin 4) : (p.clearCrane c).engine = p.engine := rfl
@[simp] theorem Part.clearCrane_bays (p : Part) (c : Fin 4) : (p.clearCrane c).bays = p.bays := rfl
@[simp] theorem Part.clearCrane_mgmt (p : Part) (c : Fin 4) : (p.clearCrane c).mgmt = p.mgmt := rfl
@[simp] theorem Part.clearCrane_inReset (p : Part) (c : Fin 4) : (p.clearCrane c).inReset = p.inReset := rfl
@[simp] theorem Part.clearCrane_free (p : Part) (c : Fin 4) : (p.clearCrane c).free = p.free := rfl

/-! ## clearHook -/

@[simp] theorem Part.clearHook_link (p : Part) (c : Fin 4) : (p.clearHook c).link = p.link := rfl
@[simp] theorem Part.clearHook_params (p : Part) (c : Fin 4) : (p.clearHook c).params = p.params := rfl
@[simp] theorem Part.clearHook_tracker (p : Part) (c : Fin 4) : (p.clearHook c).tracker = p.tracker := rfl
@[simp] theorem Part.clearHook_arbiter (p : Part) (c : Fin 4) : (p.clearHook c).arbiter = p.arbiter := rfl
@[simp] theorem Part.clearHook_gate (p : Part) (c : Fin 4) : (p.clearHook c).gate = p.gate := rfl
@[simp] theorem Part.clearHook_lines (p : Part) (c : Fin 4) : (p.clearHook c).lines = p.lines := rfl
@[simp] theorem Part.clearHook_slots (p : Part) (c : Fin 4) : (p.clearHook c).slots = p.slots := rfl
@[simp] theorem Part.clearHook_engine (p : Part) (c : Fin 4) : (p.clearHook c).engine = p.engine := rfl
@[simp] theorem Part.clearHook_bays (p : Part) (c : Fin 4) : (p.clearHook c).bays = p.bays := rfl
@[simp] theorem Part.clearHook_mgmt (p : Part) (c : Fin 4) : (p.clearHook c).mgmt = p.mgmt := rfl
@[simp] theorem Part.clearHook_inReset (p : Part) (c : Fin 4) : (p.clearHook c).inReset = p.inReset := rfl
@[simp] theorem Part.clearHook_free (p : Part) (c : Fin 4) : (p.clearHook c).free = p.free := rfl

/-! ## clearBay -/

@[simp] theorem Part.clearBay_link (p : Part) (b : Fin 6) : (p.clearBay b).link = p.link := rfl
@[simp] theorem Part.clearBay_params (p : Part) (b : Fin 6) : (p.clearBay b).params = p.params := rfl
@[simp] theorem Part.clearBay_tracker (p : Part) (b : Fin 6) : (p.clearBay b).tracker = p.tracker := rfl
@[simp] theorem Part.clearBay_arbiter (p : Part) (b : Fin 6) : (p.clearBay b).arbiter = p.arbiter := rfl
@[simp] theorem Part.clearBay_gate (p : Part) (b : Fin 6) : (p.clearBay b).gate = p.gate := rfl
@[simp] theorem Part.clearBay_lines (p : Part) (b : Fin 6) : (p.clearBay b).lines = p.lines := rfl
@[simp] theorem Part.clearBay_hooks (p : Part) (b : Fin 6) : (p.clearBay b).hooks = p.hooks := rfl
@[simp] theorem Part.clearBay_slots (p : Part) (b : Fin 6) : (p.clearBay b).slots = p.slots := rfl
@[simp] theorem Part.clearBay_engine (p : Part) (b : Fin 6) : (p.clearBay b).engine = p.engine := rfl
@[simp] theorem Part.clearBay_mgmt (p : Part) (b : Fin 6) : (p.clearBay b).mgmt = p.mgmt := rfl
@[simp] theorem Part.clearBay_inReset (p : Part) (b : Fin 6) : (p.clearBay b).inReset = p.inReset := rfl
@[simp] theorem Part.clearBay_free (p : Part) (b : Fin 6) : (p.clearBay b).free = p.free := rfl

/-! ## clearLost -/

@[simp] theorem Part.clearLost_link (p : Part) : (p.clearLost).link = p.link := rfl
@[simp] theorem Part.clearLost_params (p : Part) : (p.clearLost).params = p.params := rfl
@[simp] theorem Part.clearLost_tracker (p : Part) : (p.clearLost).tracker = p.tracker := rfl
@[simp] theorem Part.clearLost_arbiter (p : Part) : (p.clearLost).arbiter = p.arbiter := rfl
@[simp] theorem Part.clearLost_gate (p : Part) : (p.clearLost).gate = p.gate := rfl
@[simp] theorem Part.clearLost_lines (p : Part) : (p.clearLost).lines = p.lines := rfl
@[simp] theorem Part.clearLost_hooks (p : Part) : (p.clearLost).hooks = p.hooks := rfl
@[simp] theorem Part.clearLost_slots (p : Part) : (p.clearLost).slots = p.slots := rfl
@[simp] theorem Part.clearLost_engine (p : Part) : (p.clearLost).engine = p.engine := rfl
@[simp] theorem Part.clearLost_bays (p : Part) : (p.clearLost).bays = p.bays := rfl
@[simp] theorem Part.clearLost_inReset (p : Part) : (p.clearLost).inReset = p.inReset := rfl
@[simp] theorem Part.clearLost_free (p : Part) : (p.clearLost).free = p.free := rfl

/-! ## queueTask -/

@[simp] theorem Part.queueTask_link (p : Part) (t : SlotTask) : (p.queueTask t).link = p.link := rfl
@[simp] theorem Part.queueTask_params (p : Part) (t : SlotTask) : (p.queueTask t).params = p.params := rfl
@[simp] theorem Part.queueTask_tracker (p : Part) (t : SlotTask) : (p.queueTask t).tracker = p.tracker := rfl
@[simp] theorem Part.queueTask_arbiter (p : Part) (t : SlotTask) : (p.queueTask t).arbiter = p.arbiter := rfl
@[simp] theorem Part.queueTask_gate (p : Part) (t : SlotTask) : (p.queueTask t).gate = p.gate := rfl
@[simp] theorem Part.queueTask_lines (p : Part) (t : SlotTask) : (p.queueTask t).lines = p.lines := rfl
@[simp] theorem Part.queueTask_hooks (p : Part) (t : SlotTask) : (p.queueTask t).hooks = p.hooks := rfl
@[simp] theorem Part.queueTask_engine (p : Part) (t : SlotTask) : (p.queueTask t).engine = p.engine := rfl
@[simp] theorem Part.queueTask_bays (p : Part) (t : SlotTask) : (p.queueTask t).bays = p.bays := rfl
@[simp] theorem Part.queueTask_mgmt (p : Part) (t : SlotTask) : (p.queueTask t).mgmt = p.mgmt := rfl
@[simp] theorem Part.queueTask_inReset (p : Part) (t : SlotTask) : (p.queueTask t).inReset = p.inReset := rfl
@[simp] theorem Part.queueTask_free (p : Part) (t : SlotTask) : (p.queueTask t).free = p.free := rfl

/-! ## buildGrants -/

@[simp] theorem Part.buildGrants_link (p : Part) : (p.buildGrants).link = p.link := by
  simp only [Part.buildGrants]
@[simp] theorem Part.buildGrants_params (p : Part) : (p.buildGrants).params = p.params := by
  simp only [Part.buildGrants]
@[simp] theorem Part.buildGrants_tracker (p : Part) : (p.buildGrants).tracker = p.tracker := by
  simp only [Part.buildGrants]
@[simp] theorem Part.buildGrants_gate (p : Part) : (p.buildGrants).gate = p.gate := by
  simp only [Part.buildGrants]
@[simp] theorem Part.buildGrants_lines (p : Part) : (p.buildGrants).lines = p.lines := by
  simp only [Part.buildGrants]
@[simp] theorem Part.buildGrants_hooks (p : Part) : (p.buildGrants).hooks = p.hooks := by
  simp only [Part.buildGrants]
@[simp] theorem Part.buildGrants_slots (p : Part) : (p.buildGrants).slots = p.slots := by
  simp only [Part.buildGrants]
@[simp] theorem Part.buildGrants_engine (p : Part) : (p.buildGrants).engine = p.engine := by
  simp only [Part.buildGrants]
@[simp] theorem Part.buildGrants_bays (p : Part) : (p.buildGrants).bays = p.bays := by
  simp only [Part.buildGrants]
@[simp] theorem Part.buildGrants_mgmt (p : Part) : (p.buildGrants).mgmt = p.mgmt := by
  simp only [Part.buildGrants]
@[simp] theorem Part.buildGrants_inReset (p : Part) : (p.buildGrants).inReset = p.inReset := by
  simp only [Part.buildGrants]
@[simp] theorem Part.buildGrants_free (p : Part) : (p.buildGrants).free = p.free := by
  simp only [Part.buildGrants]

/-! ## Reads after writes -/

@[simp] theorem Part.setRecord_record (p : Part) (c : Fin 4) (r : CraneRecord) : (p.setRecord c r).record c = r := by
  simp [Part.setRecord, Part.record]
theorem Part.setRecord_record_ne (p : Part) (c d : Fin 4) (r : CraneRecord) (hd : d ≠ c) : (p.setRecord c r).record d = p.record d := by
  simp only [Part.setRecord, Part.record, Fin.getElem_fin]
  exact Vector.getElem_set_ne _ _ (fun e => hd (Fin.ext e.symm))
@[simp] theorem Part.setRun_run (p : Part) (c : Fin 4) (r : Option Run) : (p.setRun c r).run c = r := by
  simp [Part.setRun, Part.run]
theorem Part.setRun_run_ne (p : Part) (c d : Fin 4) (r : Option Run) (hd : d ≠ c) : (p.setRun c r).run d = p.run d := by
  simp only [Part.setRun, Part.run, Fin.getElem_fin]
  exact Vector.getElem_set_ne _ _ (fun e => hd (Fin.ext e.symm))
@[simp] theorem Part.setClaim_claim (p : Part) (c : Fin 4) (r : Option Claim) : (p.setClaim c r).claim c = r := by
  simp [Part.setClaim, Part.claim]
theorem Part.setClaim_claim_ne (p : Part) (c d : Fin 4) (r : Option Claim) (hd : d ≠ c) : (p.setClaim c r).claim d = p.claim d := by
  simp only [Part.setClaim, Part.claim, Fin.getElem_fin]
  exact Vector.getElem_set_ne _ _ (fun e => hd (Fin.ext e.symm))
@[simp] theorem Part.setOrder_order (p : Part) (c : Fin 4) (o : Option Order) : (p.setOrder c o).order c = o := by
  simp [Part.setOrder, Part.order]
theorem Part.setOrder_order_ne (p : Part) (c d : Fin 4) (o : Option Order) (hd : d ≠ c) : (p.setOrder c o).order d = p.order d := by
  simp only [Part.setOrder, Part.order, Fin.getElem_fin]
  exact Vector.getElem_set_ne _ _ (fun e => hd (Fin.ext e.symm))
@[simp] theorem Part.setLatch_latch (p : Part) (c : Fin 4) (l : Latch) : (p.setLatch c l).latch c = l := by
  simp [Part.setLatch, Part.latch]
theorem Part.setLatch_latch_ne (p : Part) (c d : Fin 4) (l : Latch) (hd : d ≠ c) : (p.setLatch c l).latch d = p.latch d := by
  simp only [Part.setLatch, Part.latch, Fin.getElem_fin]
  exact Vector.getElem_set_ne _ _ (fun e => hd (Fin.ext e.symm))
@[simp] theorem Part.setHook_hook (p : Part) (c : Fin 4) (h : Hook) : (p.setHook c h).hook c = h := by
  simp [Part.setHook, Part.hook]
theorem Part.setHook_hook_ne (p : Part) (c d : Fin 4) (h : Hook) (hd : d ≠ c) : (p.setHook c h).hook d = p.hook d := by
  simp only [Part.setHook, Part.hook, Fin.getElem_fin]
  exact Vector.getElem_set_ne _ _ (fun e => hd (Fin.ext e.symm))
@[simp] theorem Part.setBay_bay (p : Part) (c : Fin 6) (r : BayRecord) : (p.setBay c r).bay c = r := by
  simp [Part.setBay, Part.bay]
theorem Part.setBay_bay_ne (p : Part) (c d : Fin 6) (r : BayRecord) (hd : d ≠ c) : (p.setBay c r).bay d = p.bay d := by
  simp only [Part.setBay, Part.bay, Fin.getElem_fin]
  exact Vector.getElem_set_ne _ _ (fun e => hd (Fin.ext e.symm))
@[simp] theorem Part.setEntry_entry (p : Part) (c : Fin 4) (e : CraneEntry) : (p.setEntry c e).entry c = e := by
  simp [Part.setEntry, Part.entry]
theorem Part.setEntry_entry_ne (p : Part) (c d : Fin 4) (e : CraneEntry) (hd : d ≠ c) : (p.setEntry c e).entry d = p.entry d := by
  simp only [Part.setEntry, Part.entry, Fin.getElem_fin]
  exact Vector.getElem_set_ne _ _ (fun e => hd (Fin.ext e.symm))
@[simp] theorem Part.setBayEntry_bayEntry (p : Part) (c : Fin 6) (e : BayEntry) : (p.setBayEntry c e).bayEntry c = e := by
  simp [Part.setBayEntry, Part.bayEntry]
theorem Part.setBayEntry_bayEntry_ne (p : Part) (c d : Fin 6) (e : BayEntry) (hd : d ≠ c) : (p.setBayEntry c e).bayEntry d = p.bayEntry d := by
  simp only [Part.setBayEntry, Part.bayEntry, Fin.getElem_fin]
  exact Vector.getElem_set_ne _ _ (fun e => hd (Fin.ext e.symm))

@[simp] theorem Part.setZone_zone (p : Part) (k : Nat) (z : Zone) (h : k < 32) : (p.setZone k z).zone k = z := by
  simp [Part.setZone, Part.zone, h]

theorem Part.setZone_zone_ne (p : Part) (k j : Nat) (z : Zone) (h : j ≠ k) : (p.setZone k z).zone j = p.zone j := by
  unfold Part.setZone
  split
  · simp only [Part.zone]
    split
    · exact Vector.getElem_set_ne _ _ (fun e => h e.symm)
    · rfl
  · rfl

theorem Part.setZone_out (p : Part) (k : Nat) (z : Zone) (h : ¬ k < 32) : p.setZone k z = p := by
  simp [Part.setZone, h]

@[simp] theorem Part.setZone_runs (p : Part) (k : Nat) (z : Zone) : (p.setZone k z).arbiter.runs = p.arbiter.runs := by
  unfold Part.setZone; split <;> rfl

@[simp] theorem Part.setZone_claims (p : Part) (k : Nat) (z : Zone) :
    (p.setZone k z).arbiter.claims = p.arbiter.claims := by
  unfold Part.setZone; split <;> rfl

@[simp] theorem Part.setRun_zone (p : Part) (c : Fin 4) (r : Option Run) (k : Nat) : (p.setRun c r).zone k = p.zone k := rfl

@[simp] theorem Part.setClaim_zone (p : Part) (c : Fin 4) (r : Option Claim) (k : Nat) :
    (p.setClaim c r).zone k = p.zone k := rfl

@[simp] theorem Part.setOrder_latch (p : Part) (c d : Fin 4) (o : Option Order) : (p.setOrder c o).latch d = p.latch d := rfl

@[simp] theorem Part.setLatch_order (p : Part) (c d : Fin 4) (l : Latch) : (p.setLatch c l).order d = p.order d := rfl

@[simp] theorem Part.onLink_link (p : Part) (f : Link → Link) : (p.onLink f).link = f p.link := rfl

@[simp] theorem Part.onSlots_slots (p : Part) (f : SlotMap → SlotMap) : (p.onSlots f).slots = f p.slots := rfl

end Sys2Proof.Machine
end

