-- ==== Sys2Proof/Laws/Link.lean ====
section
/-! SUPPORT. What each operation on the link keeps: the own station, one URGENT entry per crane, and the capacities of the
queues. -/

namespace Sys2Proof.Machine

/-- What an operation on the link leaves standing. -/
structure Link.Keeps (l m : Link) : Prop where
  station : m.station = l.station
  urgent : (l.urgent.map UrgentEntry.crane).Nodup → (m.urgent.map UrgentEntry.crane).Nodup
  normal : l.normal.length ≤ Config.normalCapacity → m.normal.length ≤ Config.normalCapacity
  telemetry : l.telemetry.length ≤ Config.telemetryCapacity → m.telemetry.length ≤ Config.telemetryCapacity
  reply : l.reply.length ≤ Config.replyCapacity → m.reply.length ≤ Config.replyCapacity
  sup : l.sup.fifo.length ≤ Config.fifoDepth → m.sup.fifo.length ≤ Config.fifoDepth
  crane : l.crane.fifo.length ≤ Config.fifoDepth → m.crane.fifo.length ≤ Config.fifoDepth

theorem Link.Keeps.refl (l : Link) : l.Keeps l := ⟨rfl, id, id, id, id, id, id⟩

theorem Link.Keeps.trans {l m n : Link} (h : l.Keeps m) (k : m.Keeps n) : l.Keeps n :=
  ⟨k.station.trans h.station, k.urgent ∘ h.urgent, k.normal ∘ h.normal, k.telemetry ∘ h.telemetry, k.reply ∘ h.reply,
    k.sup ∘ h.sup, k.crane ∘ h.crane⟩

/-- The two spellings of "at most one entry per crane" (R170). -/
theorem urgentUnique_iff (us : List UrgentEntry) :
    (us.Pairwise fun a b => a.crane ≠ b.crane) ↔ (us.map UrgentEntry.crane).Nodup := by
  simp [List.Nodup, List.pairwise_map]

theorem Link.startSupervisor_keeps (l : Link) : l.Keeps l.startSupervisor := by
  unfold Link.startSupervisor
  split
  · exact .refl l
  · split
    · next h => exact ⟨rfl, id, id, id, fun k => by simp [h] at k; dsimp; omega, id, id⟩
    · split
      · next h => exact ⟨rfl, id, id, fun k => by simp [h] at k; dsimp; omega, id, id, id⟩
      · exact .refl l

theorem Link.startCrane_keeps (l : Link) : l.Keeps l.startCrane := by
  unfold Link.startCrane
  split
  · exact .refl l
  · split
    · next h =>
      refine ⟨rfl, fun k => ?_, id, id, id, id, id⟩
      rw [h] at k
      exact (List.nodup_cons.mp k).2
    · split
      · next h => exact ⟨rfl, id, fun k => by simp [h] at k; dsimp; omega, id, id, id, id⟩
      · exact .refl l

theorem Link.pushReply_keeps (kind : Kind) (payload : List Byte) (l : Link) (h : l.replyRoom = true) :
    l.Keeps (l.pushReply kind payload) := by
  refine Link.Keeps.trans ?_ (Link.startSupervisor_keeps _)
  refine ⟨rfl, id, id, id, fun _ => ?_, id, id⟩
  simp [Link.replyRoom] at h
  simp; omega

theorem Link.pushNormal_keeps (sort : NormalSort) (dest : Byte) (kind : Kind) (payload : List Byte) (l : Link)
    (h : l.normalRoom = true) : l.Keeps (l.pushNormal sort dest kind payload) := by
  refine Link.Keeps.trans ?_ (Link.startCrane_keeps _)
  refine ⟨rfl, id, fun _ => ?_, id, id, id, id⟩
  simp [Link.normalRoom] at h
  simp; omega

theorem Link.forwardNormal_keeps (f : Frame) (l : Link) (h : l.normalRoom = true) : l.Keeps (l.forwardNormal f) := by
  refine Link.Keeps.trans ?_ (Link.startCrane_keeps _)
  refine ⟨rfl, id, fun _ => ?_, id, id, id, id⟩
  simp [Link.normalRoom] at h
  simp; omega

theorem dropSame_length (f : Frame) (q : List Frame) (h : hasSame f q = true) : (dropSame f q).length + 1 = q.length := by
  induction q with
  | nil => simp [hasSame] at h
  | cons g rest ih =>
    unfold dropSame
    split
    · simp
    · next hn =>
      have h' : hasSame f rest = true := by
        simp only [hasSame, List.any_cons, Bool.or_eq_true, decide_eq_true_eq] at h ⊢
        exact h.resolve_left hn
      simp [ih h']

theorem Link.pushTelemetry_keeps (f : Frame) (l : Link) : l.Keeps (l.pushTelemetry f) := by
  refine Link.Keeps.trans ?_ (Link.startSupervisor_keeps _)
  refine ⟨rfl, id, id, fun k => ?_, id, id, id⟩
  dsimp only
  split
  · next hf =>
    rw [decide_eq_true_eq] at hf
    split
    · next hs =>
      have := dropSame_length f _ hs
      simp; omega
    · have hc : Config.telemetryCapacity = 32 := rfl
      simp; omega
  · next hf =>
    rw [decide_eq_true_eq] at hf
    simp; omega

theorem Link.removeCommands_keeps (c : Fin 4) (l : Link) : l.Keeps (l.removeCommands c) :=
  ⟨rfl, id, fun k => (List.length_filter_le _ _).trans k, id, id, id, id⟩

theorem Link.removeUrgent_keeps (c : Fin 4) (l : Link) : l.Keeps (l.removeUrgent c) :=
  ⟨rfl, fun k => k.sublist (List.filter_sublist.map _), id, id, id, id, id⟩

theorem Link.removeStop_keeps (c : Fin 4) (l : Link) : l.Keeps (l.removeStop c) :=
  ⟨rfl, fun k => k.sublist (List.filter_sublist.map _), id, id, id, id, id⟩

/-- A new URGENT entry for a crane that has none. -/
theorem urgent_append (us : List UrgentEntry) (u : UrgentEntry) (h : ¬ (us.any fun v => v.crane == u.crane) = true)
    (k : (us.map UrgentEntry.crane).Nodup) : ((us ++ [u]).map UrgentEntry.crane).Nodup := by
  simp only [List.map_append, List.map_cons, List.map_nil]
  rw [List.nodup_append]
  refine ⟨k, by simp, fun a ha b hb => ?_⟩
  simp only [List.mem_singleton] at hb
  subst hb
  rintro rfl
  obtain ⟨v, hv, e⟩ := List.mem_map.mp ha
  exact h (List.any_eq_true.mpr ⟨v, hv, by simp [e]⟩)

/-- A change of entries that leaves their cranes. -/
theorem urgent_map (us : List UrgentEntry) (f : UrgentEntry → UrgentEntry) (h : ∀ u, (f u).crane = u.crane) :
    (us.map f).map UrgentEntry.crane = us.map UrgentEntry.crane := by
  rw [List.map_map]
  exact List.map_congr_left fun u _ => h u

theorem Link.putStop_keeps (c : Fin 4) (causes : CauseSet) (l : Link) : l.Keeps (l.putStop c causes) := by
  unfold Link.putStop
  split
  · refine ⟨rfl, fun k => ?_, id, id, id, id, id⟩
    dsimp only
    rw [urgent_map]
    · exact k
    · intro u; split <;> rfl
  · next h =>
    refine Link.Keeps.trans ?_ (Link.startCrane_keeps _)
    exact ⟨rfl, fun k => urgent_append l.urgent ⟨c, l.seq, .stop causes⟩ h k, id, id, id, id, id⟩

theorem Link.putHalt_keeps (c : Fin 4) (tag : Nat) (l : Link) : l.Keeps (l.putHalt c tag) := by
  unfold Link.putHalt
  split
  · refine ⟨rfl, fun k => ?_, id, id, id, id, id⟩
    dsimp only
    rw [urgent_map]
    · exact k
    · intro u
      split
      · split <;> rfl
      · rfl
  · next h =>
    refine Link.Keeps.trans ?_ (Link.startCrane_keeps _)
    exact ⟨rfl, fun k => urgent_append l.urgent ⟨c, l.seq, .halt tag⟩ h k, id, id, id, id, id⟩

theorem Link.broadcastHalt_keeps (f : Frame) (l : Link) : l.Keeps (l.broadcastHalt f) := by
  refine Link.Keeps.trans ?_ (Link.startCrane_keeps _)
  refine ⟨rfl, id, fun k => ?_, id, id, id, id⟩
  dsimp only
  split
  · next h =>
    simp [Link.normalRoom] at h
    simp; omega
  · next h =>
    have hc : Config.normalCapacity = 16 := rfl
    simp [Link.normalRoom] at h
    simp; omega

/-- An update of the sequence counter, the turn and the counts keeps the link. -/
theorem Link.turn_keeps (l : Link) (turn : List Producer) : l.Keeps { l with turn := turn } := ⟨rfl, id, id, id, id, id, id⟩

/-! ## Ports -/

/-- A port's FIFO stays within its depth (R163). -/
def Port.Within (r q : Port) : Prop := r.fifo.length ≤ Config.fifoDepth → q.fifo.length ≤ Config.fifoDepth

theorem Port.offer_within (r : Port) (f : Frame) : r.Within (r.offer f) := by
  intro h
  unfold Port.offer
  split
  · simp; omega
  · exact h

theorem Port.complete_within (r : Port) (f : Frame) : r.Within (r.complete f) := by
  unfold Port.complete
  split
  · intro h; exact Port.offer_within _ f h
  · exact id

theorem Port.framingError_within (r : Port) : r.Within r.framingError := id

theorem Port.feed_within (r : Port) (b : Byte) : r.Within (r.feed b) := by
  unfold Port.feed
  split
  · split <;> exact id
  · dsimp only
    split
    · exact id
    · split
      · intro h; exact Port.complete_within _ _ h
      · exact id

theorem Port.feedAll_within (line : List Byte) (r : Port) : r.Within (r.feedAll line) := by
  induction line generalizing r with
  | nil => exact id
  | cons b rest ih => exact fun h => ih (r.feed b) (Port.feed_within r b h)

theorem Port.gap_within (r : Port) (b : Byte) : r.Within (r.gap b) := by
  unfold Port.gap
  split
  · exact Port.feed_within r b
  · exact fun h => Port.feed_within _ b (Port.framingError_within r h)

end Sys2Proof.Machine
end

