-- ==== Sys2Proof/Laws/Slots.lean ====
section
/-! SUPPORT. The slot table: a read after a write, the canonical form, and what every operation of the slot map on a slot's
contents leaves. -/

namespace Sys2Proof.Machine

/-! ## Read after write -/

theorem slotFind_slotPut (i j : Nat) (s : Slot) (l : List (Nat × Slot)) :
    slotFind j (slotPut i s l) = if j = i then some s else slotFind j l := by
  induction l with
  | nil =>
    simp only [slotPut, slotFind]
    split <;> split <;> first | rfl | omega
  | cons e rest ih =>
    obtain ⟨k, t⟩ := e
    unfold slotPut
    by_cases h1 : i < k
    · rw [if_pos h1]
      simp only [slotFind]
      repeat' split
      all_goals first | rfl | omega
    · rw [if_neg h1]
      by_cases h2 : i = k
      · rw [if_pos h2]
        simp only [slotFind]
        repeat' split
        all_goals first | rfl | omega
      · rw [if_neg h2]
        simp only [slotFind, ih]
        repeat' split
        all_goals first | rfl | omega

theorem slotFind_none_of_lt (j : Nat) (l : List (Nat × Slot)) (h : ∀ e ∈ l, j < e.1) : slotFind j l = none := by
  induction l with
  | nil => rfl
  | cons e rest ih =>
    obtain ⟨k, t⟩ := e
    have hk : j < k := h (k, t) (by simp)
    rw [slotFind, if_neg (by omega)]
    exact ih fun e he => h e (by simp [he])

theorem slotFind_slotDrop (i j : Nat) (l : List (Nat × Slot)) (h : l.Pairwise fun a b => a.1 < b.1) :
    slotFind j (slotDrop i l) = if j = i then none else slotFind j l := by
  induction l with
  | nil => simp [slotDrop, slotFind]
  | cons e rest ih =>
    obtain ⟨k, t⟩ := e
    have hr := (List.pairwise_cons.mp h).2
    have hlt : ∀ e ∈ rest, k < e.1 := (List.pairwise_cons.mp h).1
    unfold slotDrop
    by_cases hk : k = i
    · subst hk
      rw [if_pos rfl]
      by_cases hj : j = k
      · subst hj; rw [if_pos rfl]; exact slotFind_none_of_lt j rest hlt
      · rw [if_neg hj, slotFind, if_neg (fun e => hj e.symm)]
    · rw [if_neg hk]
      simp only [slotFind, ih hr]
      repeat' split
      all_goals first | rfl | omega

theorem mem_of_slotFind (i : Nat) (s : Slot) (l : List (Nat × Slot)) (h : slotFind i l = some s) : (i, s) ∈ l := by
  induction l with
  | nil => simp [slotFind] at h
  | cons e rest ih =>
    obtain ⟨k, t⟩ := e
    unfold slotFind at h
    split at h
    · next hk => simp at h; simp [hk, h]
    · exact List.mem_cons_of_mem _ (ih h)

theorem slotFind_of_mem (i : Nat) (s : Slot) (l : List (Nat × Slot)) (hl : l.Pairwise fun a b => a.1 < b.1)
    (h : (i, s) ∈ l) : slotFind i l = some s := by
  induction l with
  | nil => simp at h
  | cons e rest ih =>
    obtain ⟨k, t⟩ := e
    have hr := List.pairwise_cons.mp hl
    rcases List.mem_cons.mp h with h | h
    · cases h; simp [slotFind]
    · have : k < i := hr.1 (i, s) h
      rw [slotFind, if_neg (by omega)]
      exact ih hr.2 h

/-! ## The canonical form -/

theorem mem_slotPut (i : Nat) (s : Slot) (l : List (Nat × Slot)) (e : Nat × Slot) (h : e ∈ slotPut i s l) :
    e = (i, s) ∨ e ∈ l := by
  induction l with
  | nil => simp [slotPut] at h; exact .inl h
  | cons d rest ih =>
    obtain ⟨k, t⟩ := d
    unfold slotPut at h
    split at h
    · simpa using h
    · split at h
      · simp at h ⊢; tauto
      · rcases List.mem_cons.mp h with h | h
        · simp [h]
        · rcases ih h with h | h
          · exact .inl h
          · exact .inr (List.mem_cons_of_mem _ h)

theorem slotPut_sorted (i : Nat) (s : Slot) (l : List (Nat × Slot)) (h : l.Pairwise fun a b => a.1 < b.1) :
    (slotPut i s l).Pairwise fun a b => a.1 < b.1 := by
  induction l with
  | nil => simp [slotPut]
  | cons d rest ih =>
    obtain ⟨k, t⟩ := d
    have hr := List.pairwise_cons.mp h
    unfold slotPut
    split
    · next hi =>
      refine List.pairwise_cons.mpr ⟨fun e he => ?_, h⟩
      rcases List.mem_cons.mp he with he | he
      · subst he; exact hi
      · have := hr.1 e he; dsimp at *; omega
    · split
      · next hi hk => subst hk; exact List.pairwise_cons.mpr ⟨hr.1, hr.2⟩
      · refine List.pairwise_cons.mpr ⟨fun e he => ?_, ih hr.2⟩
        rcases mem_slotPut i s rest e he with he | he
        · subst he; dsimp; omega
        · exact hr.1 e he

theorem mem_slotDrop (i : Nat) (l : List (Nat × Slot)) (e : Nat × Slot) (h : e ∈ slotDrop i l) : e ∈ l := by
  induction l with
  | nil => simp [slotDrop] at h
  | cons d rest ih =>
    obtain ⟨k, t⟩ := d
    unfold slotDrop at h
    split at h
    · exact List.mem_cons_of_mem _ h
    · rcases List.mem_cons.mp h with h | h
      · simp [h]
      · exact List.mem_cons_of_mem _ (ih h)

theorem slotDrop_sorted (i : Nat) (l : List (Nat × Slot)) (h : l.Pairwise fun a b => a.1 < b.1) :
    (slotDrop i l).Pairwise fun a b => a.1 < b.1 := by
  induction l with
  | nil => simp [slotDrop]
  | cons d rest ih =>
    obtain ⟨k, t⟩ := d
    have hr := List.pairwise_cons.mp h
    unfold slotDrop
    split
    · exact hr.2
    · exact List.pairwise_cons.mpr ⟨fun e he => hr.1 e (mem_slotDrop i rest e he), ih hr.2⟩

/-! ## Contents replaced -/

theorem SlotMap.slot_setContents (m : SlotMap) (i j : Nat) (x : Contents) :
    (m.setContents i x).slot j = if j = i then (m.slot i).map fun s => { s with contents := x } else m.slot j := by
  unfold SlotMap.setContents
  split
  · next s h =>
    simp only [SlotMap.slot, slotFind_slotPut] at h ⊢
    split <;> simp [h]
  · next h =>
    split
    · next e => subst e; simp [h]
    · rfl

theorem slotPut_slotPut (i : Nat) (s t : Slot) (l : List (Nat × Slot)) : slotPut i t (slotPut i s l) = slotPut i t l := by
  induction l with
  | nil => simp [slotPut]
  | cons d rest ih =>
    obtain ⟨k, u⟩ := d
    by_cases h : i < k
    · simp [slotPut, h]
    · by_cases e : i = k
      · simp [slotPut, e]
      · simp [slotPut, h, e, ih]

/-- Of two replacements of a slot's contents the later stands. -/
theorem SlotMap.setContents_setContents (m : SlotMap) (i : Nat) (x y : Contents) :
    (m.setContents i x).setContents i y = m.setContents i y := by
  cases h : m.slot i with
  | none => simp [SlotMap.setContents, h]
  | some s =>
    have h' : (m.setContents i x).slot i = some { s with contents := x } := by simp [SlotMap.slot_setContents, h]
    simp [SlotMap.setContents, h] at h' ⊢
    simp [h', slotPut_slotPut]

/-- What an operation of the slot map on contents leaves: the blocks, the geometry, the canonical form, the counter and the
requests that wait. -/
structure SlotMap.Keeps (m n : SlotMap) : Prop where
  blocks : n.blocks = m.blocks
  geometry : ∀ i, (n.slot i).map Slot.geo = (m.slot i).map Slot.geo
  sorted : m.Sorted → n.Sorted
  requests : n.requests = m.requests

theorem SlotMap.Keeps.refl (m : SlotMap) : m.Keeps m := ⟨rfl, fun _ => rfl, id, rfl⟩

theorem SlotMap.Keeps.trans {m n o : SlotMap} (h : m.Keeps n) (k : n.Keeps o) : m.Keeps o :=
  ⟨k.blocks.trans h.blocks, fun i => (k.geometry i).trans (h.geometry i), k.sorted ∘ h.sorted,
    k.requests.trans h.requests⟩

theorem SlotMap.setContents_keeps (m : SlotMap) (i : Nat) (x : Contents) : m.Keeps (m.setContents i x) := by
  refine ⟨?_, fun j => ?_, fun h => ?_, ?_⟩
  · unfold SlotMap.setContents; split <;> rfl
  · rw [SlotMap.slot_setContents]
    split
    · next e => subst e; cases m.slot j <;> rfl
    · rfl
  · unfold SlotMap.setContents
    split
    · exact slotPut_sorted i _ _ h
    · exact h
  · unfold SlotMap.setContents; split <;> rfl

theorem SlotMap.lift_keeps (m : SlotMap) (i : Nat) (c : Fin 4) : m.Keeps (m.lift i c) := by
  unfold SlotMap.lift
  split
  · exact m.setContents_keeps i _
  · exact .refl m

theorem SlotMap.take_keeps (m : SlotMap) (i : Nat) (c : Fin 4) : m.Keeps (m.take i c).2 := by
  unfold SlotMap.take
  split
  · split
    · exact m.setContents_keeps i _
    · exact .refl m
  · exact .refl m

theorem SlotMap.revertSource_keeps (m : SlotMap) (i : Nat) (c : Fin 4) : m.Keeps (m.revertSource i c) := by
  unfold SlotMap.revertSource
  split
  · split
    · exact m.setContents_keeps i _
    · exact .refl m
  · exact .refl m

theorem SlotMap.lower_keeps (m : SlotMap) (i : Nat) (c : Fin 4) (coil : Coil) (t : Time) :
    m.Keeps (m.lower i c coil t) := by
  unfold SlotMap.lower
  split
  · exact m.setContents_keeps i _
  · exact m.setContents_keeps i _
  · exact .refl m

theorem SlotMap.deliver_keeps (m : SlotMap) (i : Nat) (coil : Coil) (t : Time) : m.Keeps (m.deliver i coil t) :=
  m.setContents_keeps i _

theorem SlotMap.revertDest_keeps (m : SlotMap) (i : Nat) (c : Fin 4) : m.Keeps (m.revertDest i c).1 := by
  unfold SlotMap.revertDest
  split
  · split
    · split
      · exact m.setContents_keeps i _
      · exact m.setContents_keeps i _
    · exact .refl m
  · exact .refl m

end Sys2Proof.Machine
end

