-- ==== Sys2Proof/Laws/Keeps.lean ====
section
/-! SUPPORT. What every operation of the part keeps: the mode, the clock, the parameters and the tables, the canonical forms and
capacities, and the stop lines that follow their latches. Proofs about a command cite these lemmas instead of unfolding the
operations. -/

namespace Sys2Proof.Machine

/-! ## The relation -/

/-- What an operation may change beside what every operation may: the latches it drops causes from, the crane records, what the
polls brought, and what the filter sampled. -/
structure Scope where
  drops : Fin 4 → Prop
  records : Prop
  polls : Prop
  inputs : Prop

/-- A crane's stop line is asserted exactly while its latch holds a cause (R67). -/
abbrev Part.Follows (p : Part) (c : Fin 4) : Prop := p.lines.stop[c].commanded = (p.latch c).causes.any

/-- A crane's stop line is asserted while its latch holds a cause. -/
abbrev Part.Guarded (p : Part) (c : Fin 4) : Prop := (p.latch c).causes.any = true → p.lines.stop[c].commanded = true

/-- What an operation leaves standing. -/
structure Part.Keeps (S : Scope) (p q : Part) : Prop where
  mode : q.mgmt.mode = p.mgmt.mode
  clock : q.mgmt.clock = p.mgmt.clock
  params : q.params = p.params
  inReset : q.inReset = p.inReset
  entries : q.tracker.entries = p.tracker.entries
  zones : ∀ k, (q.zone k).entry = (p.zone k).entry
  entryPoints : q.gate.entryPoints = p.gate.entryPoints
  blocks : q.slots.blocks = p.slots.blocks
  geometry : ∀ i, (q.slots.slot i).map Slot.geo = (p.slots.slot i).map Slot.geo
  routing : q.engine.routing = p.engine.routing
  bayEntries : q.bays.entries = p.bays.entries
  link : p.link.Keeps q.link
  notices : p.mgmt.notices.length ≤ Config.noticeCapacity → q.mgmt.notices.length ≤ Config.noticeCapacity
  sorted : p.slots.Sorted → q.slots.Sorted
  line : ∀ c, ¬ S.drops c → p.Follows c → q.Follows c
  weak : ∀ c, p.Guarded c → q.Guarded c
  records : S.records ∨ q.tracker.records = p.tracker.records
  polls : S.polls ∨ ((∀ b, (q.bay b).pollFacts = (p.bay b).pollFacts) ∧ q.bays.scan = p.bays.scan)
  inputs : S.inputs ∨ (q.lines.driver = p.lines.driver ∧ q.lines.nextSample = p.lines.nextSample)

variable {S : Scope}

theorem Part.Keeps.refl (p : Part) : p.Keeps S p where
  mode := rfl
  clock := rfl
  params := rfl
  inReset := rfl
  entries := rfl
  zones _ := rfl
  entryPoints := rfl
  blocks := rfl
  geometry _ := rfl
  routing := rfl
  bayEntries := rfl
  link := .refl _
  notices := id
  sorted := id
  line _ _ := id
  weak _ := id
  records := .inr rfl
  polls := .inr ⟨fun _ => rfl, rfl⟩
  inputs := .inr ⟨rfl, rfl⟩

theorem Part.Keeps.trans {p q r : Part} (h : p.Keeps S q) (k : q.Keeps S r) : p.Keeps S r where
  mode := k.mode.trans h.mode
  clock := k.clock.trans h.clock
  params := k.params.trans h.params
  inReset := k.inReset.trans h.inReset
  entries := k.entries.trans h.entries
  zones i := (k.zones i).trans (h.zones i)
  entryPoints := k.entryPoints.trans h.entryPoints
  blocks := k.blocks.trans h.blocks
  geometry i := (k.geometry i).trans (h.geometry i)
  routing := k.routing.trans h.routing
  bayEntries := k.bayEntries.trans h.bayEntries
  link := h.link.trans k.link
  notices := k.notices ∘ h.notices
  sorted := k.sorted ∘ h.sorted
  line c hc := k.line c hc ∘ h.line c hc
  weak c := k.weak c ∘ h.weak c
  records := by
    rcases h.records with a | a
    · exact .inl a
    · rcases k.records with b | b
      · exact .inl b
      · exact .inr (b.trans a)
  polls := by
    rcases h.polls with a | a
    · exact .inl a
    · rcases k.polls with b | b
      · exact .inl b
      · exact .inr ⟨fun i => (b.1 i).trans (a.1 i), b.2.trans a.2⟩
  inputs := by
    rcases h.inputs with a | a
    · exact .inl a
    · rcases k.inputs with b | b
      · exact .inl b
      · exact .inr ⟨b.1.trans a.1, b.2.trans a.2⟩

theorem Part.keeps_foldl {α : Type} (f : Part → α → Part) (h : ∀ (p : Part) (a : α), p.Keeps S (f p a)) (l : List α) (p : Part) :
    p.Keeps S (l.foldl f p) := by
  induction l generalizing p with
  | nil => exact .refl p
  | cons a rest ih => exact (h p a).trans (ih _)

theorem Part.keeps_ite {p q r : Part} (b : Prop) [Decidable b] (h : b → p.Keeps S q) (k : ¬ b → p.Keeps S r) :
    p.Keeps S (if b then q else r) := by
  split
  · exact h ‹_›
  · exact k ‹_›

/-! ## Changes of one unit -/

theorem Part.keeps_link (p : Part) (l : Link) (h : p.link.Keeps l) : p.Keeps S { p with link := l } :=
  { Part.Keeps.refl (S := S) p with link := h }

theorem Part.onLink_keeps (p : Part) (f : Link → Link) (h : p.link.Keeps (f p.link)) : p.Keeps S (p.onLink f) :=
  Part.keeps_link p _ h

theorem Part.keeps_arbiter (p : Part) (a : Arbiter) (h : ∀ k : Fin 32, a.zones[k].entry = p.arbiter.zones[k].entry) :
    p.Keeps S { p with arbiter := a } :=
  { Part.Keeps.refl (S := S) p with
    zones := fun k => by
      simp only [Part.zone]
      split
      · next hk => exact h ⟨k, hk⟩
      · rfl }

theorem Part.keeps_gate (p : Part) (g : Gate) (h : g.entryPoints = p.gate.entryPoints) (k : g.latches = p.gate.latches) :
    p.Keeps S { p with gate := g } :=
  { Part.Keeps.refl (S := S) p with
    entryPoints := h
    line := fun c _ e => by simpa [Part.Follows, Part.latch, k] using e
    weak := fun c e => by simpa [Part.Guarded, Part.latch, k] using e }

theorem Part.keeps_hooks (p : Part) (hs : Vector Hook 4) : p.Keeps S { p with hooks := hs } :=
  { Part.Keeps.refl (S := S) p with }

theorem Part.keeps_free (p : Part) (n : Nat) : p.Keeps S { p with free := n } :=
  { Part.Keeps.refl (S := S) p with }

theorem Part.keeps_slots (p : Part) (m : SlotMap) (h : p.slots.Keeps m) : p.Keeps S { p with slots := m } :=
  { Part.Keeps.refl (S := S) p with blocks := h.blocks, geometry := h.geometry, sorted := h.sorted }

theorem Part.onSlots_keeps (p : Part) (f : SlotMap → SlotMap) (h : p.slots.Keeps (f p.slots)) : p.Keeps S (p.onSlots f) :=
  Part.keeps_slots p _ h

theorem Part.setRequests_keeps (p : Part) (ts : List SlotTask) : p.Keeps S (p.setRequests ts) :=
  { Part.Keeps.refl (S := S) p with }

theorem Part.keeps_engine (p : Part) (e : Engine) (h : e.routing = p.engine.routing) : p.Keeps S { p with engine := e } :=
  { Part.Keeps.refl (S := S) p with routing := h }

theorem Part.keeps_mgmt (p : Part) (m : Mgmt) (hm : m.mode = p.mgmt.mode) (hc : m.clock = p.mgmt.clock)
    (hn : p.mgmt.notices.length ≤ Config.noticeCapacity → m.notices.length ≤ Config.noticeCapacity) :
    p.Keeps S { p with mgmt := m } :=
  { Part.Keeps.refl (S := S) p with mode := hm, clock := hc, notices := hn }

theorem Part.keeps_lines (p : Part) (ls : Lines) (h : ∀ c : Fin 4, ls.stop[c].commanded = p.lines.stop[c].commanded)
    (k : S.inputs ∨ (ls.driver = p.lines.driver ∧ ls.nextSample = p.lines.nextSample)) :
    p.Keeps S { p with lines := ls } :=
  { Part.Keeps.refl (S := S) p with
    line := fun c _ e => (h c).trans e
    weak := fun c e k => (h c).trans (e k)
    inputs := k }

theorem Part.keeps_tracker (p : Part) (t : Tracker) (h : t.entries = p.tracker.entries)
    (k : S.records ∨ t.records = p.tracker.records) : p.Keeps S { p with tracker := t } :=
  { Part.Keeps.refl (S := S) p with entries := h, records := k }

theorem Part.keeps_bays (p : Part) (b : Bays) (h : b.entries = p.bays.entries)
    (k : S.polls ∨ ((∀ i : Fin 6, b.records[i].pollFacts = p.bays.records[i].pollFacts) ∧ b.scan = p.bays.scan)) :
    p.Keeps S { p with bays := b } :=
  { Part.Keeps.refl (S := S) p with bayEntries := h, polls := k }

/-! ## Records replaced -/

theorem Part.setZone_keeps (p : Part) (k : Nat) (z : Zone) (h : z.entry = (p.zone k).entry) : p.Keeps S (p.setZone k z) := by
  unfold Part.setZone
  split
  · next hk =>
    refine Part.keeps_arbiter p _ fun j => ?_
    simp only [Part.zone, hk, dite_true] at h
    by_cases e : k = j.val
    · subst e; simpa using h
    · simp [Vector.getElem_set_ne, e]
  · exact .refl p

theorem Part.setRun_keeps (p : Part) (c : Fin 4) (r : Option Run) : p.Keeps S (p.setRun c r) :=
  Part.keeps_arbiter p _ fun _ => rfl

theorem Part.setClaim_keeps (p : Part) (c : Fin 4) (r : Option Claim) : p.Keeps S (p.setClaim c r) :=
  Part.keeps_arbiter p _ fun _ => rfl

theorem Part.setOrder_keeps (p : Part) (c : Fin 4) (o : Option Order) : p.Keeps S (p.setOrder c o) :=
  Part.keeps_gate p _ rfl rfl

theorem Part.setHook_keeps (p : Part) (c : Fin 4) (h : Hook) : p.Keeps S (p.setHook c h) := Part.keeps_hooks p _

theorem Part.setRecord_keeps (p : Part) (c : Fin 4) (r : CraneRecord) (h : S.records) : p.Keeps S (p.setRecord c r) :=
  Part.keeps_tracker p _ rfl (.inl h)

theorem Part.setBay_keeps (p : Part) (b : Fin 6) (r : BayRecord) (h : S.polls ∨ r.pollFacts = (p.bay b).pollFacts) :
    p.Keeps S (p.setBay b r) := by
  refine Part.keeps_bays p _ rfl ?_
  rcases h with h | h
  · exact .inl h
  · refine .inr ⟨fun i => ?_, rfl⟩
    by_cases e : b.val = i.val
    · have e' : b = i := Fin.ext e
      subst e'; simpa [Part.bay] using h
    · simp [Vector.getElem_set_ne, e]

theorem Part.setDeferred_keeps (p : Part) (c : Fin 4) (d : Option Deferred) : p.Keeps S (p.setDeferred c d) :=
  Part.keeps_engine p _ rfl

theorem Part.setQueue_keeps (p : Part) (q : List Request) : p.Keeps S (p.setQueue q) := Part.keeps_engine p _ rfl

theorem OutLine.command_commanded (o : OutLine) (on : Bool) : (o.command on).commanded = on := by
  unfold OutLine.command
  split
  · assumption
  · rfl

/-- A crane's latch and stop line set together. -/
theorem Part.stopLatch_keeps (p : Part) (c : Fin 4) (l : Latch) (on : Bool) (h : on = l.causes.any) :
    p.Keeps S ((p.setLatch c l).commandStop c on) :=
  { Part.Keeps.refl (S := S) p with
    line := fun d _ e => by
      by_cases hd : c.val = d.val
      · have : c = d := Fin.ext hd
        subst this
        simp [Part.Follows, Part.latch, Part.commandStop, Part.setLatch, OutLine.command_commanded, h]
      · simpa [Part.Follows, Part.latch, Part.commandStop, Part.setLatch, Vector.getElem_set_ne, hd] using e
    weak := fun d e => by
      by_cases hd : c.val = d.val
      · have : c = d := Fin.ext hd
        subst this
        simp [Part.Guarded, Part.latch, Part.commandStop, Part.setLatch, OutLine.command_commanded, h]
      · simpa [Part.Guarded, Part.latch, Part.commandStop, Part.setLatch, Vector.getElem_set_ne, hd] using e }

/-- A latch replaced by one with the same causes. -/
theorem Part.setLatch_keeps (p : Part) (c : Fin 4) (l : Latch) (h : l.causes = (p.latch c).causes) :
    p.Keeps S (p.setLatch c l) :=
  { Part.Keeps.refl (S := S) p with
    line := fun d _ e => by
      by_cases hd : c.val = d.val
      · have : c = d := Fin.ext hd
        subst this
        simpa [Part.Follows, Part.latch, Part.setLatch, h] using e
      · simpa [Part.Follows, Part.latch, Part.setLatch, Vector.getElem_set_ne, hd] using e
    weak := fun d e => by
      by_cases hd : c.val = d.val
      · have : c = d := Fin.ext hd
        subst this
        simpa [Part.Guarded, Part.latch, Part.setLatch, h] using e
      · simpa [Part.Guarded, Part.latch, Part.setLatch, Vector.getElem_set_ne, hd] using e }

theorem CauseSet.put_false_any (s : CauseSet) (c : StopCause) (h : (s.put c false).any = true) : s.any = true := by
  cases c <;> simp only [CauseSet.put, CauseSet.any, Bool.or_eq_true] at h ⊢ <;> tauto

theorem CauseSet.put_true_any (s : CauseSet) (c : StopCause) : (s.put c true).any = true := by
  cases c <;> simp [CauseSet.put, CauseSet.any]

theorem Part.dropCause_keeps (p : Part) (c : Fin 4) (x : StopCause) (h : S.drops c) : p.Keeps S (p.dropCause c x) :=
  { Part.Keeps.refl (S := S) p with
    line := fun d k e => by
      by_cases hd : c.val = d.val
      · have : c = d := Fin.ext hd
        subst this
        exact absurd h k
      · simpa [Part.Follows, Part.latch, Part.dropCause, Part.setLatch, Vector.getElem_set_ne, hd] using e
    weak := fun d e => by
      by_cases hd : c.val = d.val
      · have : c = d := Fin.ext hd
        subst this
        intro k
        have k' : ((p.latch c).causes.put x false).any = true := by
          simpa [Part.latch, Part.dropCause, Part.setLatch] using k
        exact e (CauseSet.put_false_any _ x k')
      · simpa [Part.Guarded, Part.latch, Part.dropCause, Part.setLatch, Vector.getElem_set_ne, hd] using e }

/-- The stop line of a latch whose set is empty is commanded inactive. -/
theorem Part.commandStop_keeps (p : Part) (c : Fin 4) (h : (p.latch c).causes.any = false) :
    p.Keeps S (p.commandStop c false) :=
  { Part.Keeps.refl (S := S) p with
    line := fun d _ e => by
      by_cases hd : c.val = d.val
      · have : c = d := Fin.ext hd
        subst this
        simp only [Part.latch, Fin.getElem_fin] at h
        simp [Part.Follows, Part.latch, Part.commandStop, OutLine.command_commanded, h]
      · simpa [Part.Follows, Part.latch, Part.commandStop, Vector.getElem_set_ne, hd] using e
    weak := fun d e => by
      by_cases hd : c.val = d.val
      · have : c = d := Fin.ext hd
        subst this
        intro k
        rw [show ((p.commandStop c false).latch c).causes.any = (p.latch c).causes.any from rfl, h] at k
        cases k
      · simpa [Part.Guarded, Part.latch, Part.commandStop, Vector.getElem_set_ne, hd] using e }

/-! ## Notices, verdicts, answers and replies -/

theorem Part.notify_keeps (p : Part) (k : NoticeKind) (s a b c : Nat) : p.Keeps S (p.notify k s a b c) := by
  unfold Part.notify
  dsimp only
  split
  · next h =>
    rw [Bool.and_eq_true] at h
    exact p.onLink_keeps _ (Link.pushReply_keeps _ _ _ h.2)
  · split
    · next h => exact p.keeps_mgmt _ rfl rfl fun _ => by simp; omega
    · exact p.keeps_mgmt _ rfl rfl fun h => by
        have : Config.noticeCapacity = 32 := rfl
        simp; omega

theorem Part.giveVerdict_keeps (p : Part) (v : Verdict) : p.Keeps S (p.giveVerdict v) := by
  unfold Part.giveVerdict
  split
  · next h =>
    rw [Bool.and_eq_true] at h
    exact p.onLink_keeps _ (Link.pushReply_keeps _ _ _ h.2)
  · exact p.keeps_gate _ rfl rfl

theorem Part.giveAnswer_keeps (p : Part) (a : ReplyBody) : p.Keeps S (p.giveAnswer a) := by
  unfold Part.giveAnswer
  split
  · next h =>
    rw [Bool.and_eq_true] at h
    exact p.onLink_keeps _ (Link.pushReply_keeps _ _ _ h.2)
  · exact p.keeps_engine _ rfl

theorem Part.giveReply_keeps (p : Part) (r : ReplyBody) : p.Keeps S (p.giveReply r) := by
  unfold Part.giveReply
  split
  · next h => exact p.onLink_keeps _ (Link.pushReply_keeps _ _ _ h)
  · exact p.keeps_mgmt _ rfl rfl id

theorem Part.answerFrame_keeps (p : Part) (f : Frame) (a : Answer) (r : Option Reason) (d : List Byte) :
    p.Keeps S (p.answerFrame f a r d) := p.giveReply_keeps _

theorem Part.ok_keeps (p : Part) (f : Frame) (d : List Byte) : p.Keeps S (p.ok f d) := p.giveReply_keeps _

theorem Part.refuse_keeps (p : Part) (f : Frame) (r : Reason) (d : List Byte) : p.Keeps S (p.refuse f r d) :=
  p.giveReply_keeps _

theorem Part.refuseAt_keeps (p : Part) (f : Frame) (r : Reason) (i : Nat) : p.Keeps S (p.refuseAt f r i) :=
  p.giveReply_keeps _

theorem Part.wrongMode_keeps (p : Part) (f : Frame) : p.Keeps S (p.wrongMode f) := p.giveReply_keeps _

theorem Part.verdict_keeps (p : Part) (c : Fin 4) (tag : Nat) (k : VerdictKind) (r : Option Reason) (t x : Nat) :
    p.Keeps S (p.verdict c tag k r t x) := p.giveVerdict_keeps _

theorem Part.orderVerdict_keeps (p : Part) (c : Fin 4) (o : Order) (k : VerdictKind) (r : Option Reason) :
    p.Keeps S (p.orderVerdict c o k r) := p.giveVerdict_keeps _

/-! ## The slot map (05) -/

theorem Part.noticeExpired_keeps (p : Part) (i : Nat) (r : Reservation) : p.Keeps S (p.noticeExpired i r) :=
  p.notify_keeps _ _ _ _ _

theorem Part.revertSlotDest_keeps (p : Part) (i : Nat) (c : Fin 4) : p.Keeps S (p.revertSlotDest i c) := by
  unfold Part.revertSlotDest
  have h := p.slots.revertDest_keeps i c
  rcases e : p.slots.revertDest i c with ⟨m, gone⟩
  rw [e] at h
  dsimp only
  cases gone with
  | none => exact p.keeps_slots m h
  | some r => exact (p.keeps_slots m h).trans (Part.noticeExpired_keeps _ i r)

theorem Part.makeReservation_keeps (p : Part) (i : Nat) (id : Option CoilId) (w : Nat) (d e : Option Nat) (g : Nat) :
    p.Keeps S (p.makeReservation i id w d e g).1 := by
  unfold Part.makeReservation
  dsimp only
  have h := p.slots.setContents_keeps i (.reserved ⟨p.slots.counter, id, w, d, e, g, p.reservationExpiry, false⟩)
  exact p.keeps_slots _ ⟨h.blocks, h.geometry, h.sorted, h.requests⟩

theorem serveReserve_keeps (f : Frame) (p : Part) : p.Keeps S (serveReserve f p) := by
  unfold serveReserve
  split
  · exact p.refuse_keeps _ _ _
  · split
    · exact p.refuse_keeps _ _ _
    · split
      · split
        · exact p.refuse_keeps _ _ _
        · dsimp only
          exact (p.makeReservation_keeps _ _ _ _ _ _).trans (Part.ok_keeps _ _ _)
      · exact p.refuse_keeps _ _ _

theorem serveUnreserve_keeps (f : Frame) (p : Part) : p.Keeps S (serveUnreserve f p) := by
  unfold serveUnreserve
  split
  · exact p.refuse_keeps _ _ _
  · split
    · exact p.refuse_keeps _ _ _
    · split
      · split
        · exact (p.onSlots_keeps _ (SlotMap.setContents_keeps _ _ _)).trans (Part.ok_keeps _ _ _)
        · exact p.refuse_keeps _ _ _
      · exact p.refuse_keeps _ _ _
      · exact p.refuse_keeps _ _ _

theorem serveSlotSet_keeps (f : Frame) (p : Part) : p.Keeps S (serveSlotSet f p) := by
  unfold serveSlotSet
  split
  · exact p.refuse_keeps _ _ _
  · split
    · exact p.refuse_keeps _ _ _
    · split
      · exact p.refuse_keeps _ _ _
      · split
        · split
          · exact p.refuse_keeps _ _ _
          · exact (p.onSlots_keeps _ (SlotMap.setContents_keeps _ _ _)).trans (Part.ok_keeps _ _ _)
        · split
          · exact p.refuse_keeps _ _ _
          · exact (p.onSlots_keeps _ (SlotMap.setContents_keeps _ _ _)).trans (Part.ok_keeps _ _ _)
        · split
          · exact p.refuse_keeps _ _ _
          · exact (p.onSlots_keeps _ (SlotMap.setContents_keeps _ _ _)).trans (Part.ok_keeps _ _ _)

theorem serveReservationExpiry_keeps (i : Nat) (p : Part) : p.Keeps S (serveReservationExpiry i p) := by
  unfold serveReservationExpiry
  split
  · split
    · exact (p.onSlots_keeps _ (SlotMap.setContents_keeps _ _ _)).trans (Part.noticeExpired_keeps _ _ _)
    · exact .refl p
  · split
    · exact p.onSlots_keeps _ (SlotMap.setContents_keeps _ _ _)
    · exact .refl p
  · exact .refl p

/-! ## Plans and stops (07, 03) -/

theorem Part.onPlan_keeps (p : Part) (b : Fin 6) (f : Plan → Plan) : p.Keeps S (p.onPlan b f) :=
  p.setBay_keeps b _ (.inr rfl)

theorem Part.bindPlacement_keeps (p : Part) (b : Fin 6) (k : Nat) (c : Fin 4) : p.Keeps S (p.bindPlacement b k c) :=
  p.onPlan_keeps b _

theorem Part.revertPlacement_keeps (p : Part) (b : Fin 6) (k : Nat) (c : Fin 4) : p.Keeps S (p.revertPlacement b k c) := by
  unfold Part.revertPlacement
  split
  · exact p.onPlan_keeps b _
  · exact .refl p

theorem Part.withdrawClaim_keeps (p : Part) (c : Fin 4) : p.Keeps S (p.withdrawClaim c) := by
  unfold Part.withdrawClaim
  split
  · exact .refl p
  · exact Part.Keeps.trans (p.setZone_keeps _ (Zone.dropWaiter _ _) rfl) (Part.setClaim_keeps _ _ _)

theorem Part.clearSource_keeps (p : Part) (c : Fin 4) : p.Keeps S (p.clearSource c) := by
  unfold Part.clearSource
  split
  · exact .refl p
  · dsimp only
    split
    · exact (p.setHook_keeps _ _).trans (Part.onSlots_keeps _ _ (SlotMap.revertSource_keeps _ _ _))
    · exact p.setHook_keeps _ _

theorem Part.clearDest_keeps (p : Part) (c : Fin 4) : p.Keeps S (p.clearDest c) := by
  unfold Part.clearDest
  split
  · exact .refl p
  · dsimp only
    split
    · exact (p.setHook_keeps _ _).trans (Part.revertSlotDest_keeps _ _ _)
    · exact (p.setHook_keeps _ _).trans (Part.revertPlacement_keeps _ _ _ _)

theorem Part.dropTurn_keeps (p : Part) (c : Fin 4) : p.Keeps S (p.dropTurn c) := p.keeps_gate _ rfl rfl

theorem Part.endOrder_keeps (p : Part) (c : Fin 4) (complete : Bool) (v : Option (VerdictKind × Option Reason)) :
    p.Keeps S (p.endOrder c complete v) := by
  unfold Part.endOrder
  split
  · exact .refl p
  · extract_lets p1 p2 p3 p4 p5 p6
    have h1 : p.Keeps S p1 := p.setOrder_keeps c _
    have h2 : p1.Keeps S p2 := p1.dropTurn_keeps c
    have h3 : p2.Keeps S p3 := p2.withdrawClaim_keeps c
    have h4 : p3.Keeps S p4 := p3.onLink_keeps _ (Link.removeCommands_keeps _ _)
    have h5 : p4.Keeps S p5 := Part.keeps_ite _ (fun _ => p4.clearSource_keeps _) fun _ => .refl _
    have h6 : p5.Keeps S p6 := Part.keeps_ite _ (fun _ => p5.clearDest_keeps _) fun _ => .refl _
    refine ((((h1.trans h2).trans h3).trans h4).trans h5).trans (h6.trans ?_)
    split
    · exact p6.orderVerdict_keeps _ _ _ _
    · exact .refl _

theorem Latch.addBay_causes (l : Latch) (x : StopCause) (b : Option (Fin 6)) : (l.addBay x b).causes = l.causes := by
  unfold Latch.addBay
  split <;> rfl

theorem Part.requestStop_keeps (p : Part) (c : Fin 4) (x : StopCause) (b : Option (Fin 6)) :
    p.Keeps S (p.requestStop c x b) := by
  unfold Part.requestStop
  split
  · exact .refl p
  · split
    · exact p.setLatch_keeps c _ (Latch.addBay_causes _ _ _)
    · extract_lets causes l0 p1 p2 p3 p4 p5
      have h2 : p.Keeps S p2 :=
        p.stopLatch_keeps c (Latch.addBay { p.latch c with causes := causes } x b) true
          (by rw [Latch.addBay_causes]; exact (CauseSet.put_true_any _ _).symm)
      have h3 : p2.Keeps S p3 := p2.onLink_keeps _ (Link.putStop_keeps _ _ _)
      have h4 : p3.Keeps S p4 := p3.onLink_keeps _ (Link.removeCommands_keeps _ _)
      exact ((h2.trans h3).trans h4).trans ((p4.endOrder_keeps _ _ _).trans (p5.notify_keeps _ _ _ _ _))

theorem Part.latchCleared_keeps (p : Part) (c : Fin 4) (why : Nat) (h : (p.latch c).causes.any = false) :
    p.Keeps S (p.latchCleared c why) :=
  ((p.commandStop_keeps c h).trans (Part.onLink_keeps _ _ (Link.removeStop_keeps _ _))).trans (Part.notify_keeps _ _ _ _ _ _)

theorem Part.emptyLatch_keeps (p : Part) (c : Fin 4) : p.Keeps S (p.emptyLatch c) :=
  (p.stopLatch_keeps c Latch.reset false rfl).trans (Part.onLink_keeps _ _ (Link.removeUrgent_keeps _ _))

end Sys2Proof.Machine
end

