-- ==== Sys2Proof/Laws/Zones.lean ====
section
/-! SUPPORT. What the operations of the zone arbiter and of the order gate's zone step keep (02, 03). -/

namespace Sys2Proof.Machine

variable {S : Scope}

theorem Part.give_keeps (p : Part) (c : Fin 4) (k : Nat) : p.Keeps S (p.give c k) :=
  Part.Keeps.trans (p.setZone_keeps k { p.zone k with grant := some c } rfl) (Part.setRun_keeps _ _ _)

theorem Part.give_link (p : Part) (c : Fin 4) (k : Nat) : (p.give c k).link = p.link := by
  unfold Part.give
  exact p.setZone_link k _

theorem Part.giveWay_keeps (p : Part) (y other : Fin 4) (zone : Nat) : p.Keeps S (p.giveWay y other zone) := by
  unfold Part.giveWay
  extract_lets x
  split
  · exact .refl p
  · next h =>
    have room : p.link.normalRoom = true := by
      simp only [Bool.or_eq_true, Bool.not_eq_true', not_or, Bool.not_eq_false] at h
      exact h.2
    split
    · exact .refl p
    · next further _ =>
      extract_lets free p1 cmd p2
      split
      · exact .refl p
      · have h1 : p.Keeps S p1 := by
          cases further with
          | none => exact .refl p
          | some k => exact p.give_keeps y k
        have r1 : p1.link.normalRoom = true := by
          cases further with
          | none => exact room
          | some k => rw [show p1.link = p.link from p.give_link y k]; exact room
        have h2 : p1.Keeps S p2 := p1.onLink_keeps _ (Link.pushNormal_keeps _ _ _ _ _ r1)
        exact (h1.trans h2).trans (p2.notify_keeps _ _ _ _ _)

theorem Part.resolveFacing_keeps (p : Part) (i j y : Fin 4) (k : Nat) : p.Keeps S (p.resolveFacing i j y k) := by
  unfold Part.resolveFacing
  extract_lets other p1 p2 p3
  have h1 : p.Keeps S p1 := p.withdrawClaim_keeps y
  have h2 : p1.Keeps S p2 := p1.endOrder_keeps y _ _
  have h3 : p2.Keeps S p3 := p2.notify_keeps _ _ _ _ _
  exact ((h1.trans h2).trans h3).trans (p3.giveWay_keeps _ _ _)

theorem Part.joinClaim_keeps (p : Part) (c : Fin 4) (k : Nat) (cls : ClaimClass) : p.Keeps S (p.joinClaim c k cls) :=
  Part.Keeps.trans (p.setZone_keeps k { p.zone k with waiters := (p.zone k).waiters ++ [⟨c, cls, .order⟩] } rfl)
    (Part.setClaim_keeps _ _ _)

theorem Part.afterJoin_keeps (p : Part) (c : Fin 4) (k : Nat) (cls : ClaimClass) : p.Keeps S (p.afterJoin c k cls).1 := by
  unfold Part.afterJoin
  split
  · exact .refl p
  · split
    · exact .refl p
    · split
      · exact p.resolveFacing_keeps _ _ _ _
      · exact p.resolveFacing_keeps _ _ _ _

theorem Part.claimRequest_keeps (p : Part) (c : Fin 4) (d : Direction) (cls : ClaimClass) :
    p.Keeps S (p.claimRequest c d cls).1 := by
  unfold Part.claimRequest
  split
  · exact .refl p
  · extract_lets p1
    have h1 : p.Keeps S p1 := p.withdrawClaim_keeps c
    split
    · exact h1
    · extract_lets z
      split
      · exact h1
      · split
        · exact h1
        · split
          · exact h1.trans (p1.give_keeps c _)
          · exact (h1.trans (p1.joinClaim_keeps c _ cls)).trans (Part.afterJoin_keeps _ _ _ _)

theorem Part.bindSource_keeps (p : Part) (c : Fin 4) (o : Order) : p.Keeps S (p.bindSource c o) := by
  unfold Part.bindSource
  split
  · exact (p.onSlots_keeps _ (SlotMap.lift_keeps _ _ _)).trans (Part.setHook_keeps _ _ _)
  · split
    · exact p.setHook_keeps _ _
    · exact .refl p
  · exact .refl p

theorem Part.bindSource_link (p : Part) (c : Fin 4) (o : Order) : (p.bindSource c o).link = p.link := by
  unfold Part.bindSource
  split
  · rfl
  · split <;> rfl
  · rfl

theorem Part.bindDest_keeps (p : Part) (c : Fin 4) (o : Order) : p.Keeps S (p.bindDest c o) := by
  unfold Part.bindDest
  split
  · exact (p.onSlots_keeps _ (SlotMap.lower_keeps _ _ _ _ _)).trans (Part.setHook_keeps _ _ _)
  · split
    · exact (p.bindPlacement_keeps _ _ _).trans (Part.setHook_keeps _ _ _)
    · exact .refl p
  · exact .refl p

theorem Part.bindDest_link (p : Part) (c : Fin 4) (o : Order) : (p.bindDest c o).link = p.link := by
  unfold Part.bindDest
  split
  · rfl
  · split <;> rfl
  · rfl

theorem Part.sendCommand_keeps (p : Part) (c : Fin 4) (o : Order) (cmd : Command) (h : p.link.normalRoom = true) :
    p.Keeps S (p.sendCommand c o cmd) := by
  unfold Part.sendCommand
  extract_lets seq p1 o1 p2
  have h1 : p.Keeps S p1 := p.onLink_keeps _ (Link.pushNormal_keeps _ _ _ _ _ h)
  have h2 : p1.Keeps S p2 := p1.setOrder_keeps _ _
  split
  · exact (h1.trans h2).trans (p2.orderVerdict_keeps _ _ _ _)
  · exact h1.trans h2

/-! ## NORMAL is left alone by notices and reverts -/

theorem Link.startSupervisor_normal (l : Link) : l.startSupervisor.normal = l.normal := by
  unfold Link.startSupervisor
  repeat' split
  all_goals rfl

theorem Link.pushReply_normal (k : Kind) (d : List Byte) (l : Link) : (l.pushReply k d).normal = l.normal := by
  unfold Link.pushReply
  rw [Link.startSupervisor_normal]

theorem Part.notify_normal (p : Part) (k : NoticeKind) (s a b c : Nat) : (p.notify k s a b c).link.normal = p.link.normal := by
  unfold Part.notify
  extract_lets n
  split
  · exact Link.pushReply_normal _ _ _
  · split <;> rfl

theorem Part.giveVerdict_normal (p : Part) (v : Verdict) : (p.giveVerdict v).link.normal = p.link.normal := by
  unfold Part.giveVerdict
  split
  · exact Link.pushReply_normal _ _ _
  · rfl

theorem Part.clearDest_normal (p : Part) (c : Fin 4) : (p.clearDest c).link.normal = p.link.normal := by
  unfold Part.clearDest
  split
  · rfl
  · extract_lets h0 p1
    split
    · unfold Part.revertSlotDest
      rcases p1.slots.revertDest _ c with ⟨m, gone⟩
      dsimp only
      cases gone with
      | none => rfl
      | some r => exact Part.notify_normal _ _ _ _ _ _
    · unfold Part.revertPlacement
      split <;> rfl

theorem Link.normalRoom_congr {l m : Link} (h : m.normal = l.normal) : m.normalRoom = l.normalRoom := by
  unfold Link.normalRoom
  rw [h]

theorem Part.forwardAt_keeps (p : Part) (c : Fin 4) (o : Order) (cmd : Command) (bind : Part → Part)
    (h : p.link.normalRoom = true) (hb : ∀ q : Part, q.Keeps S (bind q)) (hl : ∀ q : Part, (bind q).link = q.link) :
    p.Keeps S (p.forwardAt c o cmd bind) := by
  have h0 : (p.clearDest c).link.normalRoom = true := (Link.normalRoom_congr (p.clearDest_normal c)).trans h
  unfold Part.forwardAt
  extract_lets p1
  have h1 : p.Keeps S p1 := p.clearDest_keeps c
  split
  · exact h1.trans (p1.endOrder_keeps _ _ _)
  · rename_i p2 _ _
    have h2 : p1.Keeps S p2 := hb p1
    split
    · exact (h1.trans h2).trans (p2.endOrder_keeps _ _ _)
    · exact (h1.trans h2).trans (p2.sendCommand_keeps _ _ _ (by rw [show p2.link = p1.link from hl p1]; exact h0))

theorem Part.forwardCommand_keeps (p : Part) (c : Fin 4) (cmd : Command) (h : p.link.normalRoom = true) :
    p.Keeps S (p.forwardCommand c cmd) := by
  unfold Part.forwardCommand
  split
  · exact .refl p
  · extract_lets o1 p1
    have h1 : p.Keeps S p1 := p.setOrder_keeps _ _
    refine h1.trans ?_
    split
    · exact p1.sendCommand_keeps _ _ _ h
    · exact p1.forwardAt_keeps _ _ _ _ h (fun q => q.bindSource_keeps _ _) fun q => q.bindSource_link _ _
    · exact p1.forwardAt_keeps _ _ _ _ h (fun q => q.bindDest_keeps _ _) fun q => q.bindDest_link _ _

theorem Part.prepare_keeps (p : Part) (c : Fin 4) (cmd : Command) : p.Keeps S (p.prepare c cmd) := by
  unfold Part.prepare
  split
  · next h =>
    exact (p.dropTurn_keeps c).trans ((p.dropTurn c).forwardCommand_keeps c cmd h)
  · split
    · exact .refl p
    · extract_lets p1
      exact Part.Keeps.trans (p.setOrder_keeps _ _) (p1.keeps_gate _ rfl rfl)

/-! ## The zone step -/

theorem Part.claimToward_keeps (n : Nat) (p : Part) (c : Fin 4) (d : Direction) (cls : ClaimClass) (bound : Nat) :
    p.Keeps S (Part.claimToward n p c d cls bound).1 := by
  induction n generalizing p with
  | zero => exact .refl p
  | succ n ih =>
    unfold Part.claimToward
    split
    · exact .refl p
    · have h := p.claimRequest_keeps (S := S) c d cls
      rcases e : p.claimRequest c d cls with ⟨q, a⟩
      rw [e] at h
      cases a with
      | granted => exact h.trans (ih q)
      | wait => exact h
      | refused r => exact h
      | noZone => exact h
      | yielded => exact h

theorem Part.claiming_keeps (p : Part) (c : Fin 4) (o : Order) : p.Keeps S (p.claiming c o).1 := by
  unfold Part.claiming
  rcases p.neededZones c o with ⟨lo, hi⟩
  dsimp only
  split
  · next q e =>
    have h : p.Keeps S q := by
      have k := congrArg Prod.fst e
      dsimp only at k
      rw [← k]
      exact p.claimToward_keeps _ _ _ _ _
    exact h.trans (q.claimToward_keeps _ _ _ _ _)
  · exact p.claimToward_keeps _ _ _ _ _

theorem Part.noProgress_keeps (p : Part) (c : Fin 4) (o : Order) (opening : Bool) (r : Option Reason) :
    p.Keeps S (p.noProgress c o opening r) := by
  unfold Part.noProgress
  extract_lets o1 p1
  have h1 : p.Keeps S p1 := p.setOrder_keeps _ _
  split
  · split
    · exact h1.trans (p1.orderVerdict_keeps _ _ _ _)
    · exact h1
  · split
    · extract_lets p2
      have h2 : p1.Keeps S p2 := p1.orderVerdict_keeps _ _ _ _
      split
      · exact (h1.trans h2).trans (p2.endOrder_keeps _ _ _)
      · exact h1.trans h2
    · exact h1.trans (p1.endOrder_keeps _ _ _)

theorem Part.afterClaims_keeps (p : Part) (c : Fin 4) (opening : Bool) (r : Option Reason) :
    p.Keeps S (p.afterClaims c opening r) := by
  unfold Part.afterClaims
  split
  · exact .refl p
  · split
    · exact (p.setOrder_keeps _ _).trans (Part.prepare_keeps _ _ _)
    · split
      · exact p.noProgress_keeps _ _ _ _
      · split
        · extract_lets o1 p1
          have h1 : p.Keeps S p1 := Part.Keeps.trans (p.setOrder_keeps _ _) (Part.prepare_keeps _ _ _)
          split
          · exact h1.trans (p1.orderVerdict_keeps _ _ _ _)
          · split
            · exact h1.trans (p1.orderVerdict_keeps _ _ _ _)
            · exact h1
        · exact p.noProgress_keeps _ _ _ _

theorem Part.zoneStep_keeps (p : Part) (c : Fin 4) (opening : Bool) : p.Keeps S (p.zoneStep c opening) := by
  unfold Part.zoneStep
  split
  · exact .refl p
  · next o _ =>
    have h := p.claiming_keeps (S := S) c o
    rcases e : p.claiming c o with ⟨q, a⟩
    rw [e] at h
    cases a with
    | yielded => exact h
    | refused r => exact h.trans (q.afterClaims_keeps _ _ _)
    | done => exact h.trans (q.afterClaims_keeps _ _ _)
    | waits => exact h.trans (q.afterClaims_keeps _ _ _)

theorem Part.reportGranted_keeps (p : Part) (c : Fin 4) : p.Keeps S (p.reportGranted c) := by
  unfold Part.reportGranted
  split
  · split
    · exact p.zoneStep_keeps _ _
    · exact .refl p
  · exact .refl p

theorem Part.reportRefused_keeps (p : Part) (c : Fin 4) (r : Reason) : p.Keeps S (p.reportRefused c r) :=
  p.afterClaims_keeps _ _ _

theorem Part.grantOrder_keeps (n : Nat) (p : Part) (k : Nat) : p.Keeps S (Part.grantOrder n p k) := by
  induction n generalizing p with
  | zero => exact .refl p
  | succ n ih =>
    unfold Part.grantOrder
    split
    · exact .refl p
    · next w _ =>
      extract_lets zone p1
      have h1 : p.Keeps S p1 := p.withdrawClaim_keeps _
      split
      · exact (h1.trans (p1.give_keeps _ _)).trans (Part.reportGranted_keeps _ _)
      · exact (h1.trans (p1.reportRefused_keeps _ _)).trans (ih _)

theorem Part.handOn_keeps (p : Part) (k : Nat) : p.Keeps S (p.handOn k) := by
  unfold Part.handOn
  split
  · exact Part.grantOrder_keeps _ p k
  · exact .refl p

/-- With no claim waiting on it, a zone is handed to nobody (R30). -/
theorem Part.handOn_of_no_waiters (p : Part) (k : Nat) (h : (p.zone k).waiters = []) : p.handOn k = p := by
  unfold Part.handOn
  rw [h]
  simp [Part.grantOrder]

/-! ## Envelopes, auto-extension and release -/

theorem Part.autoExtend_keeps (n : Nat) (p : Part) (c : Fin 4) (d : Direction) (bound : Nat) :
    p.Keeps S (Part.autoExtend n p c d bound) := by
  induction n generalizing p with
  | zero => exact .refl p
  | succ n ih =>
    unfold Part.autoExtend
    split
    · exact .refl p
    · extract_lets k reached
      split
      · exact .refl p
      · split
        · exact (p.give_keeps _ _).trans (ih _)
        · exact p.requestStop_keeps _ _ _

theorem Part.releaseOne_keeps (p : Part) (c : Fin 4) (d : Direction) (r : Run) : p.Keeps S (p.releaseOne c d r) := by
  unfold Part.releaseOne
  extract_lets k rest
  refine Part.Keeps.trans ?_ (Part.handOn_keeps _ _)
  exact Part.Keeps.trans (p.setRun_keeps c rest) (Part.setZone_keeps _ k { p.zone k with grant := none } rfl)

theorem Part.releaseEnd_keeps (n : Nat) (p : Part) (c : Fin 4) (d : Direction) (kept : List Nat) :
    p.Keeps S (Part.releaseEnd n p c d kept) := by
  induction n generalizing p with
  | zero => exact .refl p
  | succ n ih =>
    unfold Part.releaseEnd
    split
    · exact .refl p
    · extract_lets k
      split
      · exact .refl p
      · exact (p.releaseOne_keeps _ _ _).trans (ih _)

theorem Part.release_keeps (p : Part) (c : Fin 4) (cover : Nat × Nat) : p.Keeps S (p.release c cover) := by
  unfold Part.release
  split
  · exact .refl p
  · exact (Part.releaseEnd_keeps _ p _ _ _).trans (Part.releaseEnd_keeps _ _ _ _ _)

theorem Part.takeEnvelope_keeps (p : Part) (c : Fin 4) (cover : Option (Nat × Nat)) :
    p.Keeps S (p.takeEnvelope c cover) := by
  unfold Part.takeEnvelope
  split
  · exact .refl p
  · exact .refl p
  · extract_lets p1 p2
    have h1 : p.Keeps S p1 := Part.autoExtend_keeps _ p _ _ _
    have h2 : p1.Keeps S p2 := Part.autoExtend_keeps _ p1 _ _ _
    exact (h1.trans h2).trans (p2.release_keeps _ _)

/-! ## The crane tracker (01) -/

theorem Part.computeEnvelope_keeps (p : Part) (c : Fin 4) (age : Nat) (h : S.records) :
    p.Keeps S (p.computeEnvelope c age) := by
  unfold Part.computeEnvelope
  split
  · exact .refl p
  · exact (p.setRecord_keeps _ _ h).trans (Part.takeEnvelope_keeps _ _ _)

theorem Part.requestEnvelope_keeps (p : Part) (c : Fin 4) (h : S.records) : p.Keeps S (p.requestEnvelope c) := by
  unfold Part.requestEnvelope
  split
  · exact p.computeEnvelope_keeps _ _ h
  · exact .refl p

theorem Part.markPair_keeps (p : Part) (w : Fin 4) (on : Bool) : p.Keeps S (p.markPair w on) :=
  p.keeps_tracker _ rfl (.inr rfl)

theorem Part.checkPair_keeps (p : Part) (w e : Fin 4) : p.Keeps S (p.checkPair w e) := by
  unfold Part.checkPair
  split
  · exact .refl p
  · extract_lets mark overlap
    split
    · next p1 _ =>
      have h1 : p.Keeps S p1 :=
        Part.keeps_ite _ (fun _ => .refl p) fun _ => (p.markPair_keeps _ _).trans (Part.notify_keeps _ _ _ _ _ _)
      exact (h1.trans (p1.requestStop_keeps _ _ _)).trans (Part.requestStop_keeps _ _ _ _)
    · split
      · exact (p.markPair_keeps _ _).trans (Part.notify_keeps _ _ _ _ _ _)
      · exact .refl p

theorem Part.checkOrdering_keeps (p : Part) (c : Fin 4) : p.Keeps S (p.checkOrdering c) := by
  unfold Part.checkOrdering
  refine Part.keeps_ite _ (fun _ => .refl p) fun _ => ?_
  extract_lets p1
  have h1 : p.Keeps S p1 := by
    simp only [p1]
    split
    · exact p.checkPair_keeps _ _
    · exact .refl p
  refine h1.trans ?_
  split
  · exact Part.checkPair_keeps _ _ _
  · exact .refl _

theorem Part.acceptTelegram_keeps (p : Part) (c : Fin 4) (t : Telegram) (clamped : Bool) (h : S.records) :
    p.Keeps S (p.acceptTelegram c t clamped) := by
  unfold Part.acceptTelegram
  extract_lets r p1 p2
  have h1 : p.Keeps S p1 := p.setRecord_keeps _ _ h
  have h2 : p1.Keeps S p2 := Part.keeps_ite _ (fun _ => .refl p1) fun _ => p1.notify_keeps _ _ _ _ _
  refine (h1.trans h2).trans ?_
  split
  · exact Part.keeps_ite _ (fun _ => .refl p2) fun _ => p2.notify_keeps _ _ _ _ _
  · exact .refl p2

theorem Part.becomeStale_keeps (p : Part) (c : Fin 4) (h : S.records) : p.Keeps S (p.becomeStale c) := by
  unfold Part.becomeStale
  extract_lets r p1 p2
  have h1 : p.Keeps S p1 := p.setRecord_keeps _ _ h
  have h2 : p1.Keeps S p2 := p1.notify_keeps _ _ _ _ _
  exact (h1.trans h2).trans (p2.requestStop_keeps _ _ _)

end Sys2Proof.Machine
end

