-- ==== Sys2Proof/Laws/Units.lean ====
section
/-! SUPPORT. What the operations of the bay controller, the allocation engine, the weigher, the filter and the order gate keep (03,
04, 06, 07). -/

namespace Sys2Proof.Machine

variable {S : Scope}

/-! ## The bay controller (07) -/

theorem Part.holdZone_keeps (p : Part) (b : Fin 6) (k : Nat) : p.Keeps S (p.holdZone b k) := by
  unfold Part.holdZone
  split
  · exact p.setZone_keeps k { p.zone k with bayHold := BaySet.put (p.zone k).bayHold b true } rfl
  · exact .refl p

theorem Part.setBayHold_keeps (p : Part) (b : Fin 6) (m : ZoneMask) : p.Keeps S (p.setBayHold b m) :=
  Part.keeps_foldl _ (fun q _ => Part.keeps_ite _ (fun _ => q.holdZone_keeps _ _) fun _ => .refl q) _ p

theorem Part.unholdZone_keeps (p : Part) (b : Fin 6) (k : Nat) : p.Keeps S (p.unholdZone b k) := by
  unfold Part.unholdZone
  split
  · exact Part.Keeps.trans (p.setZone_keeps k { p.zone k with bayHold := BaySet.put (p.zone k).bayHold b false } rfl)
      (Part.handOn_keeps _ _)
  · exact .refl p

theorem Part.clearBayHold_keeps (p : Part) (b : Fin 6) (m : ZoneMask) : p.Keeps S (p.clearBayHold b m) :=
  Part.keeps_foldl _ (fun q _ => Part.keeps_ite _ (fun _ => q.unholdZone_keeps _ _) fun _ => .refl q) _ p

theorem Part.commandLamps_keeps (p : Part) (b : Fin 6) (g r : Bool) : p.Keeps S (p.commandLamps b g r) :=
  p.keeps_lines _ (fun _ => rfl) (.inr ⟨rfl, rfl⟩)

theorem Part.deriveOnce_keeps (p : Part) (b : Fin 6) : p.Keeps S (p.deriveOnce b) := by
  unfold Part.deriveOnce
  extract_lets r new flashAt p1
  split
  · exact .refl p
  · have h1 : p.Keeps S p1 := p.setBay_keeps _ _ (.inr rfl)
    exact (h1.trans (p1.commandLamps_keeps _ _ _)).trans (Part.notify_keeps _ _ _ _ _ _)

theorem Part.driverOut_keeps (p : Part) (b : Fin 6) : p.Keeps S (p.driverOut b) := by
  unfold Part.driverOut
  extract_lets r s0 p1 p2
  have h1 : p.Keeps S p1 := p.setBay_keeps _ _ (.inr rfl)
  have h2 : p1.Keeps S p2 := p1.setBayHold_keeps _ _
  exact (h1.trans h2).trans
    (Part.keeps_foldl _ (fun q _ => Part.keeps_ite _ (fun _ => q.requestStop_keeps _ _ _) fun _ => .refl q) _ _)

theorem Part.derive_keeps (p : Part) (b : Fin 6) : p.Keeps S (p.derive b) := by
  unfold Part.derive
  extract_lets old p1 new
  have h1 : p.Keeps S p1 := p.deriveOnce_keeps _
  split
  · exact (h1.trans (p1.driverOut_keeps _)).trans (Part.deriveOnce_keeps _ _)
  · exact h1

theorem Part.driverLeft_keeps (p : Part) (b : Fin 6) : p.Keeps S (p.driverLeft b) := by
  unfold Part.driverLeft
  extract_lets st
  split
  · exact (p.driverOut_keeps _).trans (Part.derive_keeps _ _)
  · exact p.setBay_keeps _ _ (.inr rfl)

theorem Part.driverReturned_keeps (p : Part) (b : Fin 6) : p.Keeps S (p.driverReturned b) := by
  unfold Part.driverReturned
  split
  · exact p.setBay_keeps _ _ (.inr rfl)
  · exact .refl p

theorem Part.rearm_keeps (p : Part) (b : Fin 6) : p.Keeps S (p.rearm b) := by
  unfold Part.rearm
  extract_lets r s0 p1
  have h1 : p.Keeps S p1 := p.setBay_keeps _ _ (.inr rfl)
  exact (h1.trans (p1.clearBayHold_keeps _ _)).trans (Part.derive_keeps _ _)

theorem Part.discardPlan_keeps (p : Part) (b : Fin 6) : p.Keeps S (p.discardPlan b) := by
  unfold Part.discardPlan
  extract_lets r s0 p1
  split
  · exact .refl p
  · have h1 : p.Keeps S p1 := p.setBay_keeps _ _ (.inr rfl)
    exact h1.trans
      (Part.keeps_foldl _ (fun q _ => Part.keeps_ite _ (fun _ => q.endOrder_keeps _ _ _) fun _ => .refl q) _ _)

theorem Part.judgeTruck_keeps (p : Part) (b : Fin 6) : p.Keeps S (p.judgeTruck b) := by
  unfold Part.judgeTruck
  extract_lets r
  split
  · exact .refl p
  · split
    · exact p.setBay_keeps _ _ (.inr rfl)
    · split
      · exact .refl p
      · split
        · exact .refl p
        · exact Part.Keeps.trans (p.setBay_keeps b { p.bay b with noted := some _ } (.inr rfl)) (Part.notify_keeps _ _ _ _ _ _)

theorem servePlanLoad_keeps (f : Frame) (p : Part) : p.Keeps S (servePlanLoad f p) := by
  unfold servePlanLoad
  split
  · exact p.refuse_keeps _ _ _
  · split
    · exact p.refuse_keeps _ _ _
    · split
      · exact p.refuse_keeps _ _ _
      · split
        · exact p.refuse_keeps _ _ _
        · split
          · exact p.refuse_keeps _ _ _
          · extract_lets p1 r s0 p2
            have h1 : p.Keeps S p1 := p.discardPlan_keeps _
            have h2 : p1.Keeps S p2 := p1.setBay_keeps _ _ (.inr rfl)
            exact (h1.trans h2).trans (((p2.judgeTruck_keeps _).trans (Part.derive_keeps _ _)).trans (Part.ok_keeps _ _ _))

theorem servePlanClear_keeps (f : Frame) (p : Part) : p.Keeps S (servePlanClear f p) := by
  unfold servePlanClear
  split
  · exact p.refuse_keeps _ _ _
  · split
    · exact p.refuse_keeps _ _ _
    · split
      · exact p.refuse_keeps _ _ _
      · split
        · exact p.refuse_keeps _ _ _
        · split
          · exact p.ok_keeps _ _
          · exact ((p.discardPlan_keeps _).trans (Part.derive_keeps _ _)).trans (Part.ok_keeps _ _ _)

theorem serveBayAck_keeps (f : Frame) (p : Part) : p.Keeps S (serveBayAck f p) := by
  unfold serveBayAck
  split
  · exact p.refuse_keeps _ _ _
  · split
    · exact p.refuse_keeps _ _ _
    · split
      · exact p.refuse_keeps _ _ _
      · extract_lets r0 s0 p1
        have h1 : p.Keeps S p1 := by
          simp only [p1]
          split
          · exact Part.Keeps.trans (p.setBay_keeps _ { r0 with causes := { s0 with discrepancy := false } } (.inr rfl))
              (Part.derive_keeps _ _)
          · exact .refl p
        exact h1.trans (p1.ok_keeps _ _)

theorem Part.commitPlacement_keeps (p : Part) (b : Fin 6) (k : Nat) (coil : Coil) :
    p.Keeps S (p.commitPlacement b k coil) := (p.onPlan_keeps _ _).trans (Part.derive_keeps _ _)

theorem Part.stopBound_keeps (p : Part) (b : Fin 6) : p.Keeps S (p.stopBound b) :=
  Part.keeps_foldl _ (fun q _ => Part.keeps_ite _ (fun _ => q.requestStop_keeps _ _ _) fun _ => .refl q) _ p

theorem Part.noticeLeftEarly_keeps (p : Part) (b : Fin 6) : p.Keeps S (p.noticeLeftEarly b) := by
  unfold Part.noticeLeftEarly
  split
  · exact .refl p
  · split
    · exact p.notify_keeps _ _ _ _ _
    · exact .refl p

theorem Part.depart_keeps (p : Part) (b : Fin 6) : p.Keeps S (p.depart b) :=
  ((p.noticeLeftEarly_keeps _).trans (Part.discardPlan_keeps _ _)).trans (Part.derive_keeps _ _)

theorem Part.checkScale_keeps (p : Part) (b : Fin 6) (rep : Report) : p.Keeps S (p.checkScale b rep) := by
  unfold Part.checkScale
  extract_lets r p1
  split
  · exact .refl p
  · split
    · exact .refl p
    · extract_lets load
      have h1 : p.Keeps S p1 := p.onPlan_keeps _ _
      split
      · exact h1.trans (Part.Keeps.trans
          (p1.setBay_keeps b { p1.bay b with causes := { (p1.bay b).causes with discrepancy := true } } (.inr rfl))
          ((Part.notify_keeps _ _ _ _ _ _).trans (Part.derive_keeps _ _)))
      · exact h1

theorem Part.endPollStale_keeps (p : Part) (b : Fin 6) (h : S.polls) : p.Keeps S (p.endPollStale b) := by
  unfold Part.endPollStale
  extract_lets r causes
  split
  · exact Part.Keeps.trans (p.setBay_keeps _ _ (.inl h)) (Part.notify_keeps _ _ _ _ _ _)
  · exact p.setBay_keeps _ _ (.inl h)

theorem Part.takeReport_keeps (p : Part) (b : Fin 6) (rep : Report) (h : S.polls) : p.Keeps S (p.takeReport b rep) := by
  unfold Part.takeReport
  extract_lets p1 s0 p2 p3
  have h1 : p.Keeps S p1 := p.endPollStale_keeps _ h
  have h2 : p1.Keeps S p2 := p1.setBay_keeps _ _ (.inl h)
  have h3 : p2.Keeps S p3 := Part.keeps_ite _ (fun _ => .refl p2) fun _ => p2.stopBound_keeps _
  refine ((h1.trans h2).trans h3).trans ?_
  split
  · exact p3.depart_keeps _
  · exact ((p3.judgeTruck_keeps _).trans (Part.derive_keeps _ _)).trans (Part.checkScale_keeps _ _ _)

theorem Part.setScan_keeps (p : Part) (sc : Option Scan) (h : S.polls) :
    p.Keeps S { p with bays := { p.bays with scan := sc } } := p.keeps_bays _ rfl (.inl h)

theorem Part.bayReport_keeps (p : Part) (b : Fin 6) (d : List Byte) (h : S.polls) : p.Keeps S (p.bayReport b d) := by
  unfold Part.bayReport
  refine Part.keeps_ite _ (fun _ => .refl p) fun _ => ?_
  split
  · exact p.setBay_keeps _ _ (.inl h)
  · split
    · split
      · exact Part.Keeps.trans (p.setScan_keeps _ h) (Part.takeReport_keeps _ _ _ h)
      · exact p.setBay_keeps _ _ (.inl h)
    · exact p.setBay_keeps _ _ (.inl h)

theorem Part.startPoll_keeps (p : Part) (b : Fin 6) (h : S.polls) : p.Keeps S (p.startPoll b) := by
  unfold Part.startPoll
  extract_lets e room p1
  have h1 : p.Keeps S p1 :=
    Part.keeps_ite _ (fun r => p.onLink_keeps _ (Link.pushNormal_keeps _ _ _ _ _ r)) fun _ =>
      p.onLink_keeps _ ⟨rfl, id, id, id, id, id, id⟩
  exact h1.trans (p1.setScan_keeps _ h)

theorem Part.moveScan_keeps (p : Part) (b : Fin 6) (h : S.polls) : p.Keeps S (p.moveScan b) := by
  unfold Part.moveScan
  split
  · exact p.startPoll_keeps _ h
  · exact p.setScan_keeps _ h

theorem Part.missPoll_keeps (p : Part) (b : Fin 6) (h : S.polls) : p.Keeps S (p.missPoll b) := by
  unfold Part.missPoll
  extract_lets r misses p1 r1 s0 p2 p3 r2
  have h1 : p.Keeps S p1 := p.setBay_keeps _ _ (.inl h)
  split
  · have h2 : p1.Keeps S p2 := p1.setBay_keeps _ _ (.inl h)
    have h3 : p2.Keeps S p3 := p2.derive_keeps _
    exact ((h1.trans h2).trans h3).trans (p3.notify_keeps _ _ _ _ _)
  · exact h1

theorem Part.endDwell_keeps (p : Part) (sc : Scan) (h : S.polls) : p.Keeps S (p.endDwell sc) := by
  unfold Part.endDwell
  extract_lets p1
  have h1 : p.Keeps S p1 := Part.keeps_ite _ (fun _ => .refl p) fun _ => p.missPoll_keeps _ h
  exact h1.trans (p1.moveScan_keeps _ h)

theorem Part.flash_keeps (p : Part) (b : Fin 6) : p.Keeps S (p.flash b) := by
  unfold Part.flash
  extract_lets on e l0 p1 r0
  have h1 : p.Keeps S p1 := p.keeps_lines _ (fun _ => rfl) (.inr ⟨rfl, rfl⟩)
  exact h1.trans (p1.setBay_keeps _ _ (.inr rfl))

/-! ## The allocation engine (06) -/

theorem Part.makeReady_keeps (p : Part) (c : Fin 4) (q : Request) (w : Nat) (y : Quality) :
    p.Keeps S (p.makeReady c q w y) := p.setDeferred_keeps _ _

theorem Part.arriveDeferred_keeps (p : Part) (c : Fin 4) (q : Request) : p.Keeps S (p.arriveDeferred c q) := by
  unfold Part.arriveDeferred
  split
  · exact p.giveAnswer_keeps _
  · split
    · split
      · split
        · exact p.makeReady_keeps _ _ _ _
        · exact p.giveAnswer_keeps _
      · exact p.giveAnswer_keeps _
    · exact p.setDeferred_keeps _ _

theorem Part.arriveQueued_keeps (p : Part) (q : Request) : p.Keeps S (p.arriveQueued q) := by
  unfold Part.arriveQueued
  split
  · exact p.setQueue_keeps _
  · exact p.giveAnswer_keeps _

theorem serveAllocate_keeps (f : Frame) (p : Part) : p.Keeps S (serveAllocate f p) := by
  unfold serveAllocate
  split
  · exact p.refuse_keeps _ _ _
  · split
    · exact p.giveAnswer_keeps _
    · split
      · exact p.arriveQueued_keeps _
      · exact p.arriveDeferred_keeps _ _
      · exact .refl p

theorem Part.reportWeighed_keeps (p : Part) (c : Fin 4) (coil : Coil) : p.Keeps S (p.reportWeighed c coil) := by
  unfold Part.reportWeighed
  split
  · split
    · exact p.makeReady_keeps _ _ _ _
    · exact (p.setDeferred_keeps _ _).trans (Part.giveAnswer_keeps _ _)
  · exact .refl p

theorem Part.reportEmptied_keeps (p : Part) (c : Fin 4) : p.Keeps S (p.reportEmptied c) := by
  unfold Part.reportEmptied
  split
  · exact (p.setDeferred_keeps _ _).trans (Part.giveAnswer_keeps _ _)
  · exact .refl p

theorem Part.startSearch_keeps (p : Part) : p.Keeps S p.startSearch := by
  unfold Part.startSearch
  split
  · exact .refl p
  · exact { Part.Keeps.refl (S := S) p with }

theorem Part.renewSearch_keeps (p : Part) : p.Keeps S p.renewSearch := p.keeps_engine _ rfl

theorem Part.searchAndAnswer_keeps (p : Part) (q : Request) (s : Search) : p.Keeps S (p.searchAndAnswer q s) := by
  unfold Part.searchAndAnswer
  split
  · exact p.giveAnswer_keeps _
  · extract_lets blocks
    split
    · exact (p.makeReservation_keeps _ _ _ _ _ _).trans (Part.giveAnswer_keeps _ _)
    · split
      · exact p.giveAnswer_keeps _
      · split
        · exact (p.makeReservation_keeps _ _ _ _ _ _).trans (Part.giveAnswer_keeps _ _)
        · exact p.giveAnswer_keeps _

theorem Part.removeRequest_keeps (p : Part) (o : SearchOrigin) : p.Keeps S (p.removeRequest o) := by
  unfold Part.removeRequest
  split
  · exact p.setQueue_keeps _
  · exact p.setDeferred_keeps _ _

theorem Part.completeSearch_keeps (p : Part) : p.Keeps S p.completeSearch := by
  unfold Part.completeSearch
  split
  · exact .refl p
  · extract_lets p1 p2
    have h1 : p.Keeps S p1 := by
      simp only [p1]
      split
      · exact p.searchAndAnswer_keeps _ _
      · exact .refl p
    have h2 : p1.Keeps S p2 := p1.removeRequest_keeps _
    exact (h1.trans h2).trans (p2.keeps_engine _ rfl)

theorem Part.settleRequests_keeps (n : Nat) (p : Part) : p.Keeps S (Part.settleRequests n p) := by
  induction n generalizing p with
  | zero => exact .refl p
  | succ n ih =>
    unfold Part.settleRequests
    split
    · exact .refl p
    · extract_lets p1 p2
      have h1 : p.Keeps S p1 := p.keeps_free _
      have h2 : p1.Keeps S p2 := by
        simp only [p2]
        split
        · exact p1.giveAnswer_keeps _
        · exact .refl p1
      exact ((h1.trans h2).trans (p2.removeRequest_keeps _)).trans (ih _)

/-! ## The hoist weigher (04) -/

theorem Part.trackTare_keeps (p : Part) (c : Fin 4) (g : Nat) : p.Keeps S (p.trackTare c g) := by
  unfold Part.trackTare
  extract_lets h tong p1
  split
  · have h1 : p.Keeps S p1 := p.setHook_keeps _ _
    exact Part.keeps_ite _ (fun _ => h1) fun _ => h1.trans (p1.notify_keeps _ _ _ _ _)
  · exact p.setHook_keeps _ _

theorem Part.activateStaged_keeps (p : Part) (c : Fin 4) : p.Keeps S (p.activateStaged c) := p.setHook_keeps _ _

theorem Part.formCoil_keeps (p : Part) (c : Fin 4) (w : Nat) (y : Quality) : p.Keeps S (p.formCoil c w y).1 := by
  unfold Part.formCoil
  split
  · exact .refl p
  · next i _ _ =>
    have h := p.slots.take_keeps i c
    rcases e : p.slots.take i c with ⟨o, m⟩
    rw [e] at h
    cases o with
    | none => exact .refl p
    | some coil => exact p.keeps_slots _ h
  · exact .refl p

theorem Part.becomeWeighed_keeps (p : Part) (c : Fin 4) (w : Nat) (y : Quality) : p.Keeps S (p.becomeWeighed c w y) := by
  unfold Part.becomeWeighed
  extract_lets h0 p1
  have h1 : p.Keeps S p1 := p.setHook_keeps _ _
  have h2 := p1.formCoil_keeps (S := S) c w y
  generalize p1.formCoil c w y = r at h2 ⊢
  obtain ⟨p2, f⟩ := r
  dsimp only at h2 ⊢
  have h3 : p2.Keeps S (p2.setHook c { p2.hook c with coil := some f.coil, source := none }) := p2.setHook_keeps _ _
  have h4 := (h1.trans h2).trans h3
  refine Part.Keeps.trans ?_ (Part.reportWeighed_keeps _ _ _)
  split
  · split
    · exact (h4.trans (Part.notify_keeps _ _ _ _ _ _)).trans (Part.notify_keeps _ _ _ _ _ _)
    · exact h4.trans (Part.notify_keeps _ _ _ _ _ _)
  · exact h4.trans (Part.notify_keeps _ _ _ _ _ _)

theorem Part.loseCoil_keeps (p : Part) (c : Fin 4) (coil : Coil) (why : Reason) : p.Keeps S (p.loseCoil c coil why) := by
  unfold Part.loseCoil
  extract_lets h p1
  exact Part.Keeps.trans (p.setHook_keeps _ _) (p1.notify_keeps _ _ _ _ _)

theorem Part.deliver_keeps (p : Part) (c : Fin 4) (d : DestPlace) (coil : Coil) : p.Keeps S (p.deliver c d coil) := by
  unfold Part.deliver
  extract_lets h p1 p2
  have h1 : p.Keeps S p1 := p.setHook_keeps _ _
  have h2 : p1.Keeps S p2 := by
    simp only [p2]
    split
    · exact p1.onSlots_keeps _ (SlotMap.deliver_keeps _ _ _ _)
    · exact p1.commitPlacement_keeps _ _ _
  exact (h1.trans h2).trans (p2.notify_keeps _ _ _ _ _)

theorem Part.settleCoil_keeps (p : Part) (c : Fin 4) (coil : Coil) : p.Keeps S (p.settleCoil c coil) := by
  unfold Part.settleCoil
  split
  · exact p.loseCoil_keeps _ _ _
  · split
    · exact (p.setHook_keeps _ _).trans (Part.loseCoil_keeps _ _ _ _)
    · split
      · exact p.deliver_keeps _ _ _
      · exact (p.clearDest_keeps _).trans (Part.loseCoil_keeps _ _ _ _)

theorem Part.setDown_keeps (p : Part) (c : Fin 4) : p.Keeps S (p.setDown c) := by
  unfold Part.setDown
  split
  · exact .refl p
  · extract_lets h p1
    have h1 : p.Keeps S p1 := p.setHook_keeps _ _
    exact (h1.trans (p1.settleCoil_keeps _ _)).trans (Part.activateStaged_keeps _ _)

theorem Part.judgeSetDown_keeps (p : Part) (c : Fin 4) : p.Keeps S (p.judgeSetDown c) := by
  unfold Part.judgeSetDown
  extract_lets h
  exact Part.keeps_ite _ (fun _ => p.setDown_keeps _) fun _ => .refl p

theorem Part.returnEmpty_keeps (p : Part) (c : Fin 4) : p.Keeps S (p.returnEmpty c) := by
  unfold Part.returnEmpty
  extract_lets h p1 p2
  have h1 : p.Keeps S p1 := p.setHook_keeps _ _
  have h2 : p1.Keeps S p2 := Part.keeps_ite _ (fun _ => .refl p1) fun _ => p1.clearSource_keeps _
  exact (h1.trans h2).trans ((p2.reportEmptied_keeps _).trans (Part.activateStaged_keeps _ _))

theorem Part.takeGripper_keeps (p : Part) (c : Fin 4) (g : Gripper) : p.Keeps S (p.takeGripper c g) := by
  unfold Part.takeGripper
  extract_lets h p1
  have h1 : p.Keeps S p1 := p.setHook_keeps _ _
  split
  · exact h1.trans (p1.setHook_keeps _ _)
  · exact h1
  · exact h1.trans (p1.returnEmpty_keeps _)
  · exact h1.trans (p1.returnEmpty_keeps _)
  · exact h1
  · exact h1
  · exact h1.trans (p1.judgeSetDown_keeps _)
  · exact h1

theorem Part.judgeLift_keeps (p : Part) (c : Fin 4) (q : Bool) (w : WindowWeights) : p.Keeps S (p.judgeLift c q w) := by
  unfold Part.judgeLift
  extract_lets h engaged
  split
  · exact Part.keeps_ite _ (fun _ => p.setHook_keeps _ _) fun _ => .refl p
  · split
    · exact p.setHook_keeps _ _
    · split
      · exact p.setHook_keeps _ _
      · split
        · exact p.becomeWeighed_keeps _ _ _
        · exact p.setHook_keeps _ _
  · exact .refl p
  · exact .refl p

theorem Part.endWindow_keeps (p : Part) (c : Fin 4) : p.Keeps S (p.endWindow c) := by
  unfold Part.endWindow
  extract_lets h res p1
  have h1 : p.Keeps S p1 := p.setHook_keeps _ _
  split
  · exact h1
  · split
    · exact h1.trans (Part.keeps_ite _ (fun _ => p1.trackTare_keeps _ _) fun _ => .refl p1)
    · exact h1.trans (p1.judgeLift_keeps _ _ _)
    · exact h1.trans (p1.judgeLift_keeps _ _ _)
    · exact h1.trans (p1.judgeSetDown_keeps _)

theorem Part.takeSample_keeps (p : Part) (c : Fin 4) (v : Int) : p.Keeps S (p.takeSample c v) := by
  unfold Part.takeSample
  extract_lets h acc p1
  have h1 : p.Keeps S p1 := p.setHook_keeps _ _
  exact h1.trans (Part.keeps_ite _ (fun _ => p1.endWindow_keeps _) fun _ => .refl p1)

theorem Part.loadTelegram_keeps (p : Part) (c : Fin 4) (seq : Byte) (d : List Byte) :
    p.Keeps S (p.loadTelegram c seq d) := by
  unfold Part.loadTelegram
  extract_lets h
  refine Part.keeps_ite _ (fun _ => .refl p) fun _ => ?_
  split
  · exact p.setHook_keeps _ _
  · split
    · exact (p.setHook_keeps _ _).trans (Part.keeps_foldl _ (fun q _ => q.takeSample_keeps _ _) _ _)
    · exact p.setHook_keeps _ _

theorem Part.weighUnsettled_keeps (p : Part) (c : Fin 4) : p.Keeps S (p.weighUnsettled c) := by
  unfold Part.weighUnsettled
  split
  · exact .refl p
  · exact (p.setHook_keeps _ _).trans (Part.becomeWeighed_keeps _ _ _ _)

theorem Part.resetHook_keeps (p : Part) (c : Fin 4) : p.Keeps S (p.resetHook c) := by
  unfold Part.resetHook
  extract_lets p1 p2 h0 p3
  have h1 : p.Keeps S p1 := by
    simp only [p1]
    split
    · exact p.loseCoil_keeps _ _ _
    · exact .refl p
  have h2 : p1.Keeps S p2 := (p1.clearSource_keeps _).trans (Part.clearDest_keeps _ _)
  have h3 : p2.Keeps S p3 := p2.setHook_keeps _ _
  exact ((h1.trans h2).trans h3).trans ((p3.reportEmptied_keeps _).trans (Part.activateStaged_keeps _ _))

theorem Part.checkCab_keeps (p : Part) (c : Fin 4) : p.Keeps S (p.checkCab c) :=
  Part.keeps_ite _ (fun _ => p.requestStop_keeps _ _ _) fun _ => .refl p

/-! ## The input filter (03) -/

/-- Replacing an output leaves the commanded levels of the stop lines, when the output's own is left (R70). -/
theorem Lines.setOutput_stop (l : Lines) (n : Nat) (o o' : OutLine) (h : l.output n = some o')
    (k : o.commanded = o'.commanded) (c : Fin 4) : (l.setOutput n o).stop[c].commanded = l.stop[c].commanded := by
  unfold Lines.output at h
  unfold Lines.setOutput
  by_cases h1 : n < 4
  · rw [dif_pos h1] at h ⊢
    by_cases e : n = c.val
    · subst e
      simp only [Option.some.injEq] at h
      simp [k, ← h]
    · simp [Vector.getElem_set_ne, e]
  · rw [dif_neg h1]
    split
    · rfl
    · split <;> rfl

theorem Lines.setOutput_driver (l : Lines) (n : Nat) (o : OutLine) :
    (l.setOutput n o).driver = l.driver ∧ (l.setOutput n o).nextSample = l.nextSample := by
  unfold Lines.setOutput
  repeat' split
  all_goals exact ⟨rfl, rfl⟩

theorem Part.setOutput_keeps (p : Part) (n : Nat) (o o' : OutLine) (h : p.lines.output n = some o')
    (k : o.commanded = o'.commanded) : p.Keeps S (p.setOutput n o) :=
  p.keeps_lines _ (Lines.setOutput_stop _ _ _ _ h k) (.inr (Lines.setOutput_driver _ _ _))

theorem Part.compareLine_keeps (p : Part) (n : Nat) : p.Keeps S (p.compareLine n) := by
  unfold Part.compareLine
  split
  · exact .refl p
  · next o h =>
    split
    · exact .refl p
    · split
      · exact p.setOutput_keeps n _ o h rfl
      · split
        · exact .refl p
        · exact Part.Keeps.trans (p.setOutput_keeps n { o with fault := true } o h rfl) (Part.notify_keeps _ _ _ _ _ _)

theorem Part.driverChanged_keeps (p : Part) (b : Fin 6) (old new : Level) : p.Keeps S (p.driverChanged b old new) := by
  unfold Part.driverChanged
  split
  · exact .refl p
  · split
    · exact p.driverReturned_keeps _
    · split
      · exact p.driverLeft_keeps _
      · exact .refl p

theorem Part.acceptReadback_keeps (p : Part) (n : Nat) (o : OutLine) (h : p.lines.output n = some o) :
    p.Keeps S (p.acceptReadback n o) := by
  unfold Part.acceptReadback
  extract_lets p1
  have h1 : p.Keeps S p1 := p.setOutput_keeps n _ o h rfl
  exact h1.trans (Part.keeps_ite _ (fun _ => p1.compareLine_keeps _) fun _ => .refl p1)

theorem Part.acceptDriver_keeps (p : Part) (b : Fin 6) (h : S.inputs) : p.Keeps S (p.acceptDriver b) := by
  unfold Part.acceptDriver
  extract_lets f l0 p1
  have h1 : p.Keeps S p1 := p.keeps_lines _ (fun _ => rfl) (.inl h)
  exact h1.trans (p1.driverChanged_keeps _ _ _)

theorem Part.acceptLevel_keeps (p : Part) (n : Nat) (h : S.inputs) : p.Keeps S (p.acceptLevel n) := by
  unfold Part.acceptLevel
  split
  · exact Part.keeps_ite _ (fun _ => p.acceptReadback_keeps n _ (by assumption)) fun _ => .refl p
  · exact Part.keeps_ite _ (fun _ => p.acceptDriver_keeps _ h) fun _ => .refl p
  · exact .refl p

theorem Part.endDelay_keeps (p : Part) (n : Nat) : p.Keeps S (p.endDelay n) := by
  unfold Part.endDelay
  split
  · next o e =>
    exact Part.keeps_ite _ (fun _ => Part.Keeps.trans (p.setOutput_keeps n { o with delay := none } o e rfl) (Part.compareLine_keeps _ _))
      fun _ => .refl p
  · exact .refl p

theorem Part.settleLines_keeps (p : Part) (h : S.inputs) : p.Keeps S p.settleLines :=
  (Part.keeps_foldl _ (fun q n => q.acceptLevel_keeps n h) _ p).trans (Part.keeps_foldl _ (fun q n => q.endDelay_keeps n) _ _)

theorem Part.takeSamples_keeps (p : Part) (s : Samples) (h : S.inputs) : p.Keeps S (p.takeSamples s) := by
  unfold Part.takeSamples
  split
  · extract_lets p1
    have h1 : p.Keeps S p1 := p.settleLines_keeps h
    refine h1.trans (p1.keeps_lines _ (fun c => ?_) (.inl h))
    simp [Lines.sample, OutLine.sample]
  · exact .refl p

/-! ## The order gate (03) -/

theorem Part.notAccepted_keeps (p : Part) (c : Fin 4) (tag : Nat) (k : VerdictKind) (w : Option Reason) (t : Point) :
    p.Keeps S (p.notAccepted c tag k w t) :=
  Part.Keeps.trans (p.keeps_free (p.free + 1)) (Part.verdict_keeps _ _ _ _ _ _ _)

theorem Part.acceptOrder_keeps (p : Part) (c : Fin 4) (r : OrderRequest) (t : Point) : p.Keeps S (p.acceptOrder c r t) := by
  unfold Part.acceptOrder
  extract_lets p1
  have h1 : p.Keeps S p1 := p.endOrder_keeps _ _ _
  exact h1.trans ((p1.setOrder_keeps _ _).trans (Part.zoneStep_keeps _ _ _))

theorem Part.judgeResolved_keeps (p : Part) (c : Fin 4) (r : OrderRequest) (t : Point) :
    p.Keeps S (p.judgeResolved c r t) := by
  unfold Part.judgeResolved
  split
  · exact p.notAccepted_keeps _ _ _ _ _
  · exact Part.keeps_ite _ (fun _ => p.acceptOrder_keeps _ _ _) fun _ => p.notAccepted_keeps _ _ _ _ _

theorem Part.resolveOrder_keeps (p : Part) (c : Fin 4) (r : OrderRequest) : p.Keeps S (p.resolveOrder c r) := by
  unfold Part.resolveOrder
  split
  · exact p.verdict_keeps _ _ _ _ _ _
  · exact p.judgeResolved_keeps _ _ _

theorem Part.judgeOrder_keeps (p : Part) (c : Fin 4) (r : OrderRequest) : p.Keeps S (p.judgeOrder c r) := by
  unfold Part.judgeOrder
  split
  · exact p.verdict_keeps _ _ _ _ _ _
  · exact p.resolveOrder_keeps _ _

theorem Part.takeOrder_keeps (p : Part) (c : Fin 4) (k : OrderKind) (d : List Byte) : p.Keeps S (p.takeOrder c k d) := by
  unfold Part.takeOrder
  split
  · exact p.verdict_keeps _ _ _ _ _ _
  · exact p.judgeOrder_keeps _ _

theorem Part.takeHalt_keeps (p : Part) (c : Fin 4) (d : List Byte) : p.Keeps S (p.takeHalt c d) := by
  unfold Part.takeHalt
  split
  · exact p.verdict_keeps _ _ _ _ _ _
  · extract_lets p1
    have h1 : p.Keeps S p1 := p.endOrder_keeps _ _ _
    exact (h1.trans (p1.onLink_keeps _ (Link.putHalt_keeps _ _ _))).trans (Part.verdict_keeps _ _ _ _ _ _ _)

theorem Part.takeBroadcastHalt_keeps (p : Part) (f : Frame) : p.Keeps S (p.takeBroadcastHalt f) := by
  unfold Part.takeBroadcastHalt
  extract_lets p1
  have h1 : p.Keeps S p1 := Part.keeps_foldl _ (fun q _ =>
    (q.endOrder_keeps _ _ _).trans (Part.onLink_keeps _ _ (Link.removeCommands_keeps _ _))) _ p
  exact h1.trans (p1.onLink_keeps _ (Link.broadcastHalt_keeps _ _))

theorem Part.takeDone_keeps (p : Part) (c : Fin 4) (d : RawDone) : p.Keeps S (p.takeDone c d) := by
  unfold Part.takeDone
  split
  · exact .refl p
  · split
    · exact p.endOrder_keeps _ _ _
    · exact Part.keeps_ite _ (fun _ => p.setOrder_keeps _ _) fun _ => p.endOrder_keeps _ _ _
    · exact .refl p
    · exact .refl p

/-! ## POSITION telegrams (R6 to R11) -/

theorem Part.handOnPosition_keeps (p : Part) (c : Fin 4) (g : Gripper) (h : S.records) :
    p.Keeps S (p.handOnPosition c g) := by
  unfold Part.handOnPosition
  extract_lets p1 p2
  have h1 : p.Keeps S p1 := p.checkOrdering_keeps _
  have h2 : p1.Keeps S p2 := p1.computeEnvelope_keeps _ _ h
  exact (h1.trans h2).trans ((p2.takeGripper_keeps _ _).trans (Part.checkCab_keeps _ _))

theorem Part.positionTelegram_keeps (p : Part) (c : Fin 4) (seq : Byte) (d : List Byte) (h : S.records) :
    p.Keeps S (p.positionTelegram c seq d) := by
  unfold Part.positionTelegram
  extract_lets r
  refine Part.keeps_ite _ (fun _ => .refl p) fun _ => ?_
  split
  · exact p.setRecord_keeps _ _ h
  · split
    · exact (p.acceptTelegram_keeps _ _ _ h).trans (Part.handOnPosition_keeps _ _ _ h)
    · exact p.setRecord_keeps _ _ h

end Sys2Proof.Machine
end

