-- ==== Sys2Proof/Laws/Commands.lean ====
section
/-! SUPPORT. What the steps that reach the units keep: the FIFOs and queues of the link, the zone frames, the service at the slot
map, and the frames and expiries of each command (08, 09, 10). -/

namespace Sys2Proof.Machine

variable {S : Scope}

/-! ## Ports and forwarding (08) -/

theorem Part.onPort_keeps (p : Part) (id : PortId) (f : Port → Port) (h : ∀ r : Port, r.Within (f r)) :
    p.Keeps S (p.onPort id f) := by
  cases id with
  | supervisor => exact p.onLink_keeps (fun l => { l with sup := f l.sup }) ⟨rfl, id, id, id, id, h p.link.sup, id⟩
  | crane => exact p.onLink_keeps (fun l => { l with crane := f l.crane }) ⟨rfl, id, id, id, id, id, h p.link.crane⟩

theorem Part.dropSup_keeps (p : Part) : p.Keeps S p.dropSup :=
  p.onPort_keeps _ _ fun r h => by simp; omega

theorem Part.judgeHead_keeps (p : Part) : p.Keeps S p.judgeHead := p.onLink_keeps _ ⟨rfl, id, id, id, id, id, id⟩

theorem Part.dropCrane_keeps (p : Part) : p.Keeps S p.dropCrane :=
  (p.onPort_keeps _ _ fun r h => by simp; omega).trans (Part.judgeHead_keeps _)

theorem Part.receive_keeps (p : Part) (id : PortId) (line : List Byte) : p.Keeps S (p.receive id line) := by
  unfold Part.receive
  extract_lets q
  have h : p.Keeps S q := p.onPort_keeps _ _ fun r => Port.feedAll_within line r
  exact Part.keeps_ite _ (fun _ => h.trans (Part.judgeHead_keeps _)) fun _ => h

theorem Part.forwardSup_keeps (p : Part) : p.Keeps S p.forwardSup := by
  unfold Part.forwardSup
  split
  · exact .refl p
  · split
    · split
      · next h => exact p.dropSup_keeps.trans (Part.onLink_keeps _ _ (Link.forwardNormal_keeps _ _ h))
      · exact .refl p
    · exact p.dropSup_keeps.trans (Part.onPort_keeps _ _ _ fun _ => id)
    · exact p.dropSup_keeps.trans (Part.onPort_keeps _ _ _ fun _ => id)
    · exact .refl p
    · exact .refl p
    · exact .refl p

theorem Part.toTelemetry_keeps (p : Part) (f : Frame) : p.Keeps S (p.onLink (Link.pushTelemetry f)) :=
  p.onLink_keeps _ (Link.pushTelemetry_keeps _ _)

theorem Part.forwardCrane_keeps (p : Part) : p.Keeps S p.forwardCrane := by
  unfold Part.forwardCrane
  split
  · exact .refl p
  · split
    · extract_lets p1
      have h1 : p.Keeps S p1 :=
        Part.keeps_ite _ (fun _ => p.dropCrane_keeps.trans (Part.onPort_keeps _ _ _ fun _ => id)) fun _ => p.dropCrane_keeps
      exact h1.trans (p1.toTelemetry_keeps _)
    · exact p.dropCrane_keeps.trans (Part.onPort_keeps _ _ _ fun _ => id)
    · exact p.dropCrane_keeps.trans (Part.onPort_keeps _ _ _ fun _ => id)
    · exact .refl p
    · exact .refl p
    · exact .refl p
    · exact .refl p

theorem Part.frameSent_keeps (p : Part) (id : PortId) : p.Keeps S (p.frameSent id) := by
  unfold Part.frameSent
  extract_lets sent
  split
  · exact Part.keeps_ite _ (fun _ => (p.onPort_keeps _ sent fun _ h => h).trans
      (Part.onLink_keeps _ _ (Link.startSupervisor_keeps _))) fun _ => .refl p
  · exact Part.keeps_ite _ (fun _ => (p.onPort_keeps _ sent fun _ h => h).trans
      (Part.onLink_keeps _ _ (Link.startCrane_keeps _))) fun _ => .refl p

theorem Part.produce_keeps (p : Part) (d : Producer) (h : p.link.replyRoom = true) : p.Keeps S (p.produce d) := by
  unfold Part.produce
  split
  · split
    · next v rest _ =>
      exact Part.Keeps.trans (p.keeps_gate { p.gate with verdicts := rest } rfl rfl)
        (Part.onLink_keeps _ _ (Link.pushReply_keeps _ _ _ h))
    · exact .refl p
  · split
    · exact Part.Keeps.trans (p.keeps_mgmt { p.mgmt with reply := none } rfl rfl id)
        (Part.onLink_keeps _ _ (Link.pushReply_keeps _ _ _ h))
    · exact .refl p
  · split
    · next a rest _ =>
      exact Part.Keeps.trans (p.keeps_engine { p.engine with answers := rest } rfl)
        (Part.onLink_keeps _ _ (Link.pushReply_keeps _ _ _ h))
    · exact .refl p
  · split
    · next n rest e =>
      exact Part.Keeps.trans (p.keeps_mgmt { p.mgmt with notices := rest } rfl rfl fun k => by
          rw [e, List.length_cons] at k; dsimp; omega)
        (Part.onLink_keeps _ _ (Link.pushReply_keeps _ _ _ h))
    · exact .refl p

theorem Part.grantReply_keeps (p : Part) : p.Keeps S p.grantReply := by
  unfold Part.grantReply
  split
  · exact .refl p
  · next h =>
    rw [Bool.not_eq_true', Bool.not_eq_false] at h
    split
    · exact .refl p
    · exact (p.produce_keeps _ h).trans (Part.onLink_keeps _ _ (Link.turn_keeps _ _))

/-! ## Queries (09) -/

theorem answerQuery_keeps (f : Frame) (q : QueryRequest) (bytes : List Byte) (clear : Part → Part) (p : Part)
    (h : p.Keeps S (clear p)) : p.Keeps S (answerQuery f q bytes clear p) := by
  unfold answerQuery
  split
  · exact p.refuse_keeps _ _ _
  · extract_lets data
    exact Part.Keeps.trans (Part.keeps_ite _ (fun _ => h) fun _ => .refl p) (Part.ok_keeps _ _ _)

theorem queryWhole_keeps (bytes : Part → List Byte) (clear : Part → Part) (f : Frame) (p : Part)
    (h : p.Keeps S (clear p)) : p.Keeps S (queryWhole bytes clear f p) := by
  unfold queryWhole
  split
  · exact p.refuse_keeps _ _ _
  · exact answerQuery_keeps _ _ _ _ _ h

theorem querySubject_keeps {α : Type} (subject : Nat → Option α) (bytes : Part → α → List Byte) (clear : Part → α → Part)
    (f : Frame) (p : Part) (h : ∀ a, p.Keeps S (clear p a)) : p.Keeps S (querySubject subject bytes clear f p) := by
  unfold querySubject
  split
  · exact p.refuse_keeps _ _ _
  · split
    · exact p.refuse_keeps _ _ _
    · exact answerQuery_keeps _ _ _ _ _ (h _)

theorem serveQueryCrane_keeps (f : Frame) (p : Part) (h : S.records) : p.Keeps S (serveQueryCrane f p) :=
  querySubject_keeps _ _ _ _ _ fun _ => p.setRecord_keeps _ _ h

theorem serveQueryZone_keeps (f : Frame) (p : Part) : p.Keeps S (serveQueryZone f p) :=
  querySubject_keeps _ _ _ _ _ fun _ => .refl p

theorem serveQuerySlot_keeps (f : Frame) (p : Part) : p.Keeps S (serveQuerySlot f p) :=
  querySubject_keeps _ _ _ _ _ fun _ => .refl p

theorem serveQueryBlockSums_keeps (f : Frame) (p : Part) : p.Keeps S (serveQueryBlockSums f p) :=
  queryWhole_keeps _ _ _ _ (.refl p)

theorem serveQueryHook_keeps (f : Frame) (p : Part) : p.Keeps S (serveQueryHook f p) :=
  querySubject_keeps _ _ _ _ _ fun _ => p.setHook_keeps _ _

theorem serveQueryBay_keeps (f : Frame) (p : Part) (h : S.polls) : p.Keeps S (serveQueryBay f p) :=
  querySubject_keeps _ _ _ _ _ fun _ => p.setBay_keeps _ _ (.inl h)

theorem serveQueryLink_keeps (f : Frame) (p : Part) : p.Keeps S (serveQueryLink f p) :=
  queryWhole_keeps _ _ _ _ (p.onLink_keeps _ ⟨rfl, id, id, id, id, id, id⟩)

theorem serveQueryPart_keeps (f : Frame) (p : Part) : p.Keeps S (serveQueryPart f p) := by
  unfold serveQueryPart
  split
  · exact p.refuse_keeps _ _ _
  · split
    · exact answerQuery_keeps _ _ _ _ _ (p.keeps_mgmt _ rfl rfl id)
    · exact p.refuse_keeps _ _ _

theorem serveQuerySummary_keeps (f : Frame) (p : Part) : p.Keeps S (serveQuerySummary f p) :=
  queryWhole_keeps _ _ _ _ (.refl p)

theorem serveTableRead_keeps (f : Frame) (p : Part) : p.Keeps S (serveTableRead f p) := by
  unfold serveTableRead
  split
  · exact p.refuse_keeps _ _ _
  · split
    · exact p.refuse_keeps _ _ _
    · split
      · exact p.refuse_keeps _ _ _
      · exact Part.keeps_ite _ (fun _ => p.ok_keeps _ _) fun _ => p.refuse_keeps _ _ _

/-! ## Zone frames (02) and STOP_RELEASE (03) -/

theorem serveMask_keeps (data : Nat → List Byte) (effect : ZoneMask → Part → Part) (f : Frame) (p : Part)
    (h : ∀ m, p.Keeps S (effect m p)) : p.Keeps S (serveMask data effect f p) := by
  unfold serveMask
  split
  · exact p.refuse_keeps _ _ _
  · split
    · exact p.refuse_keeps _ _ _
    · exact h _

theorem serveHold_keeps (f : Frame) (p : Part) : p.Keeps S (serveHold f p) := by
  unfold serveHold
  split
  · exact p.refuse_keeps _ _ _
  · next m seconds _ =>
    split
    · exact p.refuseAt_keeps _ _ _
    · refine Part.Keeps.trans ?_ (Part.ok_keeps _ _ _)
      exact Part.keeps_foldl _ (fun q k => q.setZone_keeps k { q.zone k with hold := some (q.holdPart seconds) } rfl) _ p

theorem Part.endHold_keeps (p : Part) (k : Nat) : p.Keeps S (p.endHold k) := by
  unfold Part.endHold
  split
  · exact Part.Keeps.trans (p.setZone_keeps k { p.zone k with hold := none } rfl) (Part.handOn_keeps _ _)
  · exact .refl p

theorem serveUnhold_keeps (f : Frame) (p : Part) : p.Keeps S (serveUnhold f p) :=
  serveMask_keeps _ _ f p fun _ => (Part.keeps_foldl _ (fun q k => q.endHold_keeps k) _ p).trans (Part.ok_keeps _ _ _)

theorem Part.expireHold_keeps (p : Part) (k : Nat) : p.Keeps S (p.expireHold k) := by
  unfold Part.expireHold
  split
  · extract_lets p1
    have h1 : p.Keeps S (p.setZone k { p.zone k with hold := none }) := p.setZone_keeps _ _ rfl
    exact (h1.trans (Part.notify_keeps _ _ _ _ _ _)).trans (Part.handOn_keeps _ _)
  · exact .refl p

theorem Part.refuseWaiters_keeps (p : Part) (k : Nat) : p.Keeps S (p.refuseWaiters k) :=
  Part.keeps_foldl _ (fun q _ => Part.keeps_ite _
    (fun _ => (q.withdrawClaim_keeps _).trans (Part.reportRefused_keeps _ _ _)) fun _ => .refl q) _ p

theorem Part.blockZones_keeps (p : Part) (m : ZoneMask) : p.Keeps S (p.blockZones m) :=
  (Part.keeps_foldl _ (fun q k => q.setZone_keeps k { q.zone k with blocked := true } rfl) _ p).trans
    (Part.keeps_foldl _ (fun q k => q.refuseWaiters_keeps k) _ _)

theorem serveBlock_keeps (f : Frame) (p : Part) : p.Keeps S (serveBlock f p) := by
  refine serveMask_keeps _ _ f p fun m => ?_
  split
  · exact p.refuseAt_keeps _ _ _
  · exact (p.blockZones_keeps m).trans (Part.ok_keeps _ _ _)

theorem serveUnblock_keeps (f : Frame) (p : Part) : p.Keeps S (serveUnblock f p) :=
  serveMask_keeps _ _ f p fun _ =>
    (Part.keeps_foldl _ (fun q k => q.setZone_keeps k { q.zone k with blocked := false } rfl) _ p).trans
      (Part.ok_keeps _ _ _)

theorem Part.releaseCause_keeps (p : Part) (c : Fin 4) (x : StopCause) (h : S.drops c) (k : S.records) :
    p.Keeps S (p.releaseCause c x) := by
  unfold Part.releaseCause
  split
  · extract_lets p1
    have h1 : p.Keeps S p1 := Part.keeps_ite _ (fun _ => p.requestEnvelope_keeps _ k) fun _ => .refl p
    exact h1.trans (Part.keeps_ite _ (fun _ => p1.dropCause_keeps _ _ h) fun _ => .refl p1)
  · exact .refl p

theorem Part.releaseStop_keeps (p : Part) (c : Fin 4) (h : S.drops c) (k : S.records) : p.Keeps S (p.releaseStop c) := by
  unfold Part.releaseStop
  extract_lets p1
  have h1 : p.Keeps S p1 := Part.keeps_foldl _ (fun q x => q.releaseCause_keeps c x h k) _ p
  split
  · exact h1
  · next e =>
    rw [Bool.not_eq_true] at e
    exact h1.trans (p1.latchCleared_keeps _ _ e)

/-! ## Service at the slot map (R118) -/

theorem Part.queueTask_keeps (p : Part) (t : SlotTask) : p.Keeps S (p.queueTask t) := p.setRequests_keeps _

theorem Part.hold_keeps (p : Part) (f : Option Frame) : p.Keeps S { p with mgmt := { p.mgmt with held := f } } :=
  p.keeps_mgmt _ rfl rfl id

/-! ## Telegrams, orders and expiries, with no request waiting before them -/

theorem Part.takePending_keeps (p : Part) (h : p.pendingDue = true) : p.Keeps S p.takePending := by
  have room : p.link.normalRoom = true := by
    unfold Part.pendingDue at h
    rw [Bool.and_eq_true] at h
    exact h.1
  unfold Part.takePending
  split
  · exact .refl p
  · next c rest _ =>
    have h1 : p.Keeps S { p with gate := { p.gate with pendingTurn := rest } } := p.keeps_gate _ rfl rfl
    dsimp only
    split
    · exact h1.trans (Part.forwardCommand_keeps _ _ _ room)
    · exact h1

end Sys2Proof.Machine
end

