-- ==== Sys2Proof/Laws/Safe.lean ====
section
/-! SUPPORT. What every step keeps, table writes and mode changes included: one URGENT entry per crane, the capacities of the
queues, the canonical slot table, and the stop lines that follow their latches. -/

namespace Sys2Proof.Machine

/-- What every step leaves standing (R67, R163, R170 to R173, R183). -/
structure Part.Safe (p q : Part) : Prop where
  link : p.link.Keeps q.link
  notices : p.mgmt.notices.length ≤ Config.noticeCapacity → q.mgmt.notices.length ≤ Config.noticeCapacity
  sorted : p.slots.Sorted → q.slots.Sorted
  line : ∀ c, p.Follows c → q.Follows c

/-- The scope of an operation that drops no cause. -/
def Scope.wide : Scope := ⟨fun _ => False, True, True, True⟩

/-- The scope of an operation that drops causes of one crane. -/
def Scope.dropping (c : Fin 4) : Scope := ⟨fun d => d = c, True, True, True⟩

theorem Part.Keeps.safe {p q : Part} (h : p.Keeps Scope.wide q) : p.Safe q :=
  ⟨h.link, h.notices, h.sorted, fun c => h.line c id⟩

theorem Part.Safe.refl (p : Part) : p.Safe p := (Part.Keeps.refl p).safe

theorem Part.Safe.trans {p q r : Part} (h : p.Safe q) (k : q.Safe r) : p.Safe r :=
  ⟨h.link.trans k.link, k.notices ∘ h.notices, k.sorted ∘ h.sorted, fun c => k.line c ∘ h.line c⟩

theorem Part.safe_foldl {α : Type} (f : Part → α → Part) (h : ∀ (p : Part) (a : α), p.Safe (f p a)) (l : List α) (p : Part) :
    p.Safe (l.foldl f p) := by
  induction l generalizing p with
  | nil => exact .refl p
  | cons a rest ih => exact (h p a).trans (ih _)

theorem Part.safe_ite {p q r : Part} (b : Prop) [Decidable b] (h : b → p.Safe q) (k : ¬ b → p.Safe r) :
    p.Safe (if b then q else r) := by
  split
  · exact h ‹_›
  · exact k ‹_›

/-- A change of units that none of the laws is about. -/
theorem Part.safe_of_eq {p q : Part} (hl : q.link = p.link) (hn : q.mgmt.notices = p.mgmt.notices)
    (hs : q.slots.slots = p.slots.slots) (hg : q.gate.latches = p.gate.latches) (hc : q.lines.stop = p.lines.stop) :
    p.Safe q where
  link := hl ▸ .refl _
  notices := by rw [hn]; exact id
  sorted := by unfold SlotMap.Sorted; rw [hs]; exact id
  line := fun c => by unfold Part.Follows Part.latch; rw [hg, hc]; exact id

/-! ## A latch that loses causes and then settles -/

/-- An operation that drops causes of one crane, and whose end agrees with the crane's stop line. -/
theorem Part.Keeps.safe_dropping {p q : Part} {c : Fin 4} (h : p.Keeps (Scope.dropping c) q)
    (k : q.Guarded c → q.Follows c) : p.Safe q :=
  ⟨h.link, h.notices, h.sorted, fun d e => by
    by_cases hd : d = c
    · subst hd
      refine k (h.weak d fun g => ?_)
      rw [e]
      exact g
    · exact h.line d hd e⟩

theorem Part.guarded_follows (p : Part) (c : Fin 4) (h : (p.latch c).causes.any = true) (g : p.Guarded c) : p.Follows c := by
  unfold Part.Follows
  rw [g h, h]

theorem Part.notify_gate (p : Part) (k : NoticeKind) (s a b c : Nat) : (p.notify k s a b c).gate = p.gate := by
  unfold Part.notify
  extract_lets n
  split
  · rfl
  · split <;> rfl

theorem Part.notify_lines (p : Part) (k : NoticeKind) (s a b c : Nat) : (p.notify k s a b c).lines = p.lines := by
  unfold Part.notify
  extract_lets n
  split
  · rfl
  · split <;> rfl

theorem Part.latchCleared_follows (p : Part) (c : Fin 4) (why : Nat) (h : (p.latch c).causes.any = false) :
    (p.latchCleared c why).Follows c := by
  have hg : (p.latchCleared c why).gate = p.gate := Part.notify_gate _ _ _ _ _ _
  have hl : (p.latchCleared c why).lines = (p.commandStop c false).lines := Part.notify_lines _ _ _ _ _ _
  unfold Part.Follows Part.latch
  rw [hg, hl]
  simp only [Part.latch] at h
  rw [h]
  simp [Part.commandStop, OutLine.command_commanded]

theorem Part.releaseStop_safe (p : Part) (c : Fin 4) : p.Safe (p.releaseStop c) := by
  refine (p.releaseStop_keeps c (S := Scope.dropping c) rfl trivial).safe_dropping ?_
  unfold Part.releaseStop
  extract_lets p1
  split
  · next h => exact p1.guarded_follows c h
  · next h =>
    rw [Bool.not_eq_true] at h
    exact fun _ => p1.latchCleared_follows c 1 h

theorem Part.removeStartup_safe (p : Part) (c : Fin 4) : p.Safe (p.removeStartup c) := by
  unfold Part.removeStartup
  split
  · extract_lets p1
    have h1 : p.Keeps (Scope.dropping c) p1 := p.dropCause_keeps c .startup rfl
    split
    · next h => exact h1.safe_dropping (p1.guarded_follows c h)
    · next h =>
      rw [Bool.not_eq_true] at h
      exact (h1.trans (p1.latchCleared_keeps c 2 h)).safe_dropping fun _ => p1.latchCleared_follows c 2 h
  · exact .refl p

/-! ## Modes and the restart (10) -/

theorem Part.changeMode_safe (p : Part) (m : Mode) (cause : Nat) : p.Safe (p.changeMode m cause) :=
  Part.Safe.trans (q := { p with mgmt := { p.mgmt with mode := m } }) (Part.safe_of_eq rfl rfl rfl rfl rfl)
    (Part.notify_keeps _ _ _ _ _ _).safe

theorem Part.buildGrants_safe (p : Part) : p.Safe p.buildGrants := by
  refine Part.safe_of_eq ?_ ?_ ?_ ?_ ?_ <;> simp

theorem Part.enterRun_safe (p : Part) : p.Safe p.enterRun := by
  unfold Part.enterRun
  extract_lets p1
  have h1 : p.Safe p1 := p.buildGrants_safe
  exact (h1.trans (Part.safe_foldl _ (fun q c => q.removeStartup_safe c) _ _)).trans (Part.changeMode_safe _ _ _)

theorem Part.judgeRun_safe (p : Part) (f : Frame) : p.Safe (p.judgeRun f) := by
  unfold Part.judgeRun
  split
  · exact (p.refuseAt_keeps _ _ _).safe
  · extract_lets p1
    have h1 : p.Safe p1 := Part.safe_foldl _ (fun q c => (q.requestEnvelope_keeps c trivial).safe) _ p
    split
    · exact h1.trans (p1.refuseAt_keeps _ _ _).safe
    · exact (h1.trans p1.enterRun_safe).trans (Part.ok_keeps _ _ _).safe

theorem Part.maintainCrane_safe (p : Part) (c : Fin 4) : p.Safe (p.maintainCrane c) := by
  unfold Part.maintainCrane
  extract_lets tag p1 p2
  have h1 : p.Safe p1 := (p.endOrder_keeps _ _ _).safe
  have h2 : p1.Safe p2 := (p1.onLink_keeps _ (Link.removeCommands_keeps _ _)).safe
  refine (h1.trans h2).trans ?_
  clear_value tag
  cases tag
  · exact .refl p2
  · exact (p2.onLink_keeps _ (Link.putHalt_keeps _ _ _)).safe

theorem Part.enterMaintenance_safe (p : Part) : p.Safe p.enterMaintenance :=
  (Part.safe_foldl _ (fun q c => q.maintainCrane_safe c) _ p).trans (Part.changeMode_safe _ _ _)

theorem serveMode_safe (f : Frame) (p : Part) : p.Safe (serveMode f p) := by
  unfold serveMode
  split
  · exact (p.refuse_keeps _ _ _).safe
  · split
    · exact (p.ok_keeps _ _).safe
    · exact p.judgeRun_safe f
    · exact p.judgeRun_safe f
  · split
    · exact (p.wrongMode_keeps _).safe
    · exact p.enterMaintenance_safe.trans (Part.ok_keeps _ _ _).safe
    · exact (p.ok_keeps _ _).safe
  · exact (p.refuse_keeps _ _ _).safe

theorem Part.restartOrder_safe (p : Part) (c : Fin 4) : p.Safe (p.restartOrder c) := by
  unfold Part.restartOrder
  extract_lets p1 p2
  have h1 : p.Safe p1 := ((p.endOrder_keeps _ _ _).trans (Part.clearDest_keeps _ _)).safe
  have h2 : p1.Safe p2 := Part.safe_ite _ (fun _ => (p1.clearSource_keeps _).safe) fun _ => .refl p1
  exact (h1.trans h2).trans (p2.setOrder_keeps _ _).safe

theorem serveRestart_safe (f : Frame) (p : Part) : p.Safe (serveRestart f p) := by
  unfold serveRestart
  split
  · exact (p.refuse_keeps _ _ _).safe
  · extract_lets p1 p2 p3 p4
    have h1 : p.Safe p1 := Part.safe_foldl _ (fun q c => q.restartOrder_safe c) _ p
    have h2 : p1.Safe p2 := by refine Part.safe_of_eq ?_ ?_ ?_ ?_ ?_ <;> simp only [p2]
    have h3 : p2.Safe p3 := (Part.settleRequests_keeps _ _).safe
    have h4 : p3.Safe p4 := Part.safe_foldl _ (fun q c => (q.requestStop_keeps c _ _).safe) _ p3
    exact (((h1.trans h2).trans h3).trans h4).trans ((p4.changeMode_safe _ _).trans (Part.ok_keeps _ _ _).safe)

theorem serveStopRelease_safe (f : Frame) (p : Part) : p.Safe (serveStopRelease f p) := by
  unfold serveStopRelease
  split
  · exact (p.refuse_keeps _ _ _).safe
  · split
    · exact (p.refuse_keeps _ _ _).safe
    · extract_lets p1
      exact (p.releaseStop_safe _).trans (p1.ok_keeps _ _).safe

/-! ## Table writes (09) -/

theorem serveTable_safe (owner : Frame → Nat → List (List Byte) → Part → Part) (f : Frame) (p : Part)
    (h : ∀ n es, p.Safe (owner f n es p)) : p.Safe (serveTable owner f p) := by
  unfold serveTable
  split
  · exact (p.refuse_keeps _ _ _).safe
  · exact (p.refuse_keeps _ _ _).safe
  · exact h _ _

theorem ownerStartup_safe {α : Type} (read : Nat → List Byte → Option α) (apply : List (Nat × α) → Part → Part) (f : Frame)
    (n : Nat) (es : List (List Byte)) (p : Part) (h : ∀ as, p.Safe (apply as p)) :
    p.Safe (ownerStartup read apply f n es p) := by
  unfold ownerStartup
  split
  · exact (p.wrongMode_keeps _).safe
  · split
    · exact (p.refuseAt_keeps _ _ _).safe
    · exact (h _).trans (Part.ok_keeps _ _ _).safe

theorem Part.clearFault_keeps {S : Scope} (p : Part) (n : Nat) : p.Keeps S (p.clearFault n) := by
  unfold Part.clearFault
  split
  · next o h => exact p.setOutput_keeps n { o with fault := false } o h rfl
  · exact p.keeps_lines _ (fun _ => rfl) (.inr ⟨rfl, rfl⟩)

theorem Part.craneChanged_safe (p : Part) (c : Fin 4) (e : CraneEntry) : p.Safe (p.craneChanged c e) := by
  unfold Part.craneChanged
  extract_lets p1 p2 t p3
  have h1 : p.Safe p1 := Part.safe_of_eq rfl rfl rfl rfl rfl
  have h2 : p1.Safe p2 :=
    (((p1.resetHook_keeps c).trans (Part.emptyLatch_keeps _ c)).trans (Part.setOrder_keeps _ c none)).safe
  have h3 : p2.Safe p3 := Part.safe_of_eq rfl rfl rfl rfl rfl
  exact ((h1.trans h2).trans h3).trans
    (Part.safe_ite _ (fun _ => (p3.requestStop_keeps _ _ _).safe) fun _ => (p3.clearFault_keeps _).safe)

theorem applyCraneEntry_safe (i : Nat) (e : CraneEntry) (p : Part) : p.Safe (applyCraneEntry i e p) := by
  unfold applyCraneEntry
  split
  · exact .refl p
  · exact Part.safe_ite _ (fun _ => Part.safe_of_eq rfl rfl rfl rfl rfl) fun _ => p.craneChanged_safe _ _

theorem serveCraneTable_safe (f : Frame) (p : Part) : p.Safe (serveCraneTable f p) :=
  serveTable_safe _ f p fun n es => ownerStartup_safe _ _ f n es p fun _ =>
    Part.safe_foldl _ (fun q (e : Nat × CraneEntry) => applyCraneEntry_safe e.1 e.2 q) _ p

theorem Part.setZone_safe (p : Part) (k : Nat) (z : Zone) : p.Safe (p.setZone k z) := by
  refine Part.safe_of_eq ?_ ?_ ?_ ?_ ?_ <;> simp

theorem serveZoneTable_safe (f : Frame) (p : Part) : p.Safe (serveZoneTable f p) :=
  serveTable_safe _ f p fun n es => ownerStartup_safe _ _ f n es p fun _ =>
    Part.safe_foldl _ (fun q (e : Nat × ZoneEntry) => q.setZone_safe e.1 ((q.zone e.1).withEntry e.2)) _ p

theorem serveEntryTable_safe (f : Frame) (p : Part) : p.Safe (serveEntryTable f p) :=
  serveTable_safe _ f p fun n es => ownerStartup_safe _ _ f n es p fun _ =>
    Part.safe_foldl _ (fun q (e : Nat × EntryPoint) => by
      unfold applyEntryPoint
      split
      · exact .refl q
      · exact Part.safe_of_eq rfl rfl rfl rfl rfl) _ p

theorem SlotMap.applyGeometry_sorted (m : SlotMap) (e : Nat × Option Geometry) (h : m.Sorted) :
    (m.applyGeometry e).Sorted := by
  unfold SlotMap.applyGeometry
  split
  · exact slotDrop_sorted _ _ h
  · split
    · exact slotPut_sorted _ _ _ h
    · exact slotPut_sorted _ _ _ h

theorem SlotMap.applyGeometries_sorted (gs : List (Nat × Option Geometry)) (m : SlotMap) (h : m.Sorted) :
    (gs.foldl SlotMap.applyGeometry m).Sorted := by
  induction gs generalizing m with
  | nil => exact h
  | cons e rest ih => exact ih _ (m.applyGeometry_sorted e h)

/-- A slot map in canonical form in place of the old one. -/
theorem Part.safe_slots (p : Part) (m : SlotMap) (h : p.slots.Sorted → m.Sorted) : p.Safe { p with slots := m } :=
  ⟨.refl _, id, h, fun _ => id⟩

theorem serveGeometryTable_safe (f : Frame) (p : Part) : p.Safe (serveGeometryTable f p) := by
  refine serveTable_safe _ f p fun n es => ?_
  unfold ownerGeometry
  split
  · exact (p.wrongMode_keeps _).safe
  · split
    · exact (p.refuseAt_keeps _ _ _).safe
    · split
      · exact (p.refuseAt_keeps _ _ _).safe
      · split
        · exact (p.refuseAt_keeps _ _ _).safe
        · extract_lets m
          split
          · exact (p.refuseAt_keeps _ _ _).safe
          · exact (p.safe_slots m (SlotMap.applyGeometries_sorted _ _)).trans (Part.ok_keeps _ _ _).safe

theorem serveGroupMap_safe (f : Frame) (p : Part) : p.Safe (serveGroupMap f p) := by
  refine serveTable_safe _ f p fun n es => ?_
  unfold ownerGroupMap
  split
  · exact (p.refuse_keeps _ _ _).safe
  · refine Part.Safe.trans (Part.safe_foldl _ (fun q e => ?_) _ p) (Part.ok_keeps _ _ _).safe
    unfold applyRouting
    split
    · exact Part.safe_of_eq rfl rfl rfl rfl rfl
    · exact .refl q

theorem serveCalibration_safe (f : Frame) (p : Part) : p.Safe (serveCalibration f p) := by
  refine serveTable_safe _ f p fun n es => ?_
  unfold ownerCalibration
  extract_lets points
  split
  · exact (p.refuse_keeps _ _ _).safe
  · split
    · exact (p.refuse_keeps _ _ _).safe
    · refine Part.Safe.trans ?_ (Part.ok_keeps _ _ _).safe
      exact Part.safe_ite _ (fun _ => Part.safe_of_eq rfl rfl rfl rfl rfl) fun _ => Part.safe_of_eq rfl rfl rfl rfl rfl

theorem Part.startPoll_safe (p : Part) (b : Fin 6) : p.Safe (p.startPoll b) := (p.startPoll_keeps b trivial).safe

theorem Part.bayJoins_safe (p : Part) (b : Fin 6) (e : BayEntry) : p.Safe (p.bayJoins b e) := by
  unfold Part.bayJoins
  extract_lets p1
  have h1 : p.Safe p1 := Part.safe_of_eq rfl rfl rfl rfl rfl
  exact h1.trans (Part.safe_ite _ (fun _ => p1.startPoll_safe _) fun _ => .refl p1)

theorem Part.bayLeaves_safe (p : Part) (b : Fin 6) (e : BayEntry) : p.Safe (p.bayLeaves b e) := by
  unfold Part.bayLeaves
  extract_lets mask p1 p2 p3 r p4 p5
  have h1 : p.Safe p1 := Part.safe_of_eq rfl rfl rfl rfl rfl
  have h2 : p1.Safe p2 :=
    Part.safe_ite _ (fun _ => ((p1.discardPlan_keeps _).trans (Part.derive_keeps _ _)).safe) fun _ => .refl p1
  have h3 : p2.Safe p3 := (p2.clearBayHold_keeps _ _).safe
  have h4 : p3.Safe p4 := Part.safe_of_eq rfl rfl rfl rfl rfl
  have h5 : p4.Safe p5 := ((p4.clearFault_keeps _).trans (Part.clearFault_keeps _ _)).safe
  exact (((h1.trans h2).trans h3).trans h4).trans
    (h5.trans (Part.safe_ite _ (fun _ => (p5.moveScan_keeps _ trivial).safe) fun _ => .refl p5))

theorem Part.bayStays_safe (p : Part) (b : Fin 6) (e : BayEntry) : p.Safe (p.bayStays b e) := by
  unfold Part.bayStays
  extract_lets old p1
  have h1 : p.Safe p1 := Part.safe_of_eq rfl rfl rfl rfl rfl
  exact h1.trans (Part.safe_ite _ (fun _ => ((p1.clearBayHold_keeps _ _).trans (Part.setBayHold_keeps _ _ _)).safe)
    fun _ => .refl p1)

theorem serveBayTable_safe (f : Frame) (p : Part) : p.Safe (serveBayTable f p) := by
  refine serveTable_safe _ f p fun n es => ?_
  unfold ownerBays
  split
  · exact (p.wrongMode_keeps _).safe
  · split
    · split
      · exact (p.refuseAt_keeps _ _ _).safe
      · refine Part.Safe.trans ?_ (Part.ok_keeps _ _ _).safe
        unfold Part.applyBayEntry
        split
        · exact p.bayStays_safe _ _
        · exact p.bayJoins_safe _ _
        · exact p.bayLeaves_safe _ _
        · exact Part.safe_of_eq rfl rfl rfl rfl rfl
    · exact (p.refuseAt_keeps _ _ _).safe

theorem serveParams_safe (f : Frame) (p : Part) : p.Safe (serveParams f p) := by
  refine serveTable_safe _ f p fun n es => ?_
  unfold ownerParams
  split
  · exact (p.refuseAt_keeps _ _ _).safe
  · extract_lets q
    split
    · exact (p.refuseAt_keeps _ _ _).safe
    · split
      · exact (p.wrongMode_keeps _).safe
      · refine Part.Safe.trans ?_ (Part.ok_keeps _ _ _).safe
        unfold Part.setParams
        exact Part.safe_ite _ (fun _ => Part.safe_of_eq rfl rfl rfl rfl rfl) fun _ => Part.safe_of_eq rfl rfl rfl rfl rfl

theorem applyBlocks_slots (es : List (Nat × List Byte)) (m : SlotMap) :
    (es.foldl (fun m e => applyBlock e.1 e.2 m) m).slots = m.slots := by
  induction es generalizing m with
  | nil => rfl
  | cons e rest ih =>
    rw [List.foldl_cons, ih]
    unfold applyBlock
    split <;> rfl

theorem serveBlockTable_safe (f : Frame) (p : Part) : p.Safe (serveBlockTable f p) := by
  refine serveTable_safe _ f p fun n es => ?_
  unfold ownerBlocks
  split
  · exact (p.wrongMode_keeps _).safe
  · exact (p.refuseAt_keeps _ _ _).safe
  · refine Part.Safe.trans (p.safe_slots _ fun h => ?_) (Part.ok_keeps _ _ _).safe
    unfold SlotMap.Sorted
    rw [applyBlocks_slots]
    exact h

/-! ## Service at the slot map (R118) -/

theorem serveSlotFrame_safe (f : Frame) (p : Part) : p.Safe (serveSlotFrame f p) := by
  unfold serveSlotFrame
  split
  · exact (serveReserve_keeps f p).safe
  · exact (serveUnreserve_keeps f p).safe
  · exact (serveSlotSet_keeps f p).safe
  · split
    · exact serveBlockTable_safe f p
    · exact serveGeometryTable_safe f p
    · exact (serveGroupMap_safe f p).trans (Part.renewSearch_keeps _).safe
    · exact (serveParams_safe f p).trans (Part.renewSearch_keeps _).safe
  · exact (serveTableRead_keeps f p).safe
  · exact Part.safe_ite _ (fun _ => (serveQuerySlot_keeps f p).safe) fun _ => (serveQueryBlockSums_keeps f p).safe
  · exact .refl p

theorem SlotTask.serve_safe (t : SlotTask) (p : Part) : p.Safe (t.serve p) := by
  unfold SlotTask.serve
  split
  · exact p.completeSearch_keeps.safe
  · exact (p.hold_keeps none).safe.trans (serveSlotFrame_safe _ _)
  · split
    · next c f _ k _ =>
      cases readOrder k f.payload with
      | none => exact .refl p
      | some r => exact (p.resolveOrder_keeps c r).safe
    · exact .refl p
  · exact (serveReservationExpiry_keeps _ p).safe

theorem Part.serveNext_safe (p : Part) : p.Safe p.serveNext := by
  unfold Part.serveNext
  split
  · exact .refl p
  · exact (p.setRequests_keeps _).safe.trans (SlotTask.serve_safe _ _)

theorem Part.serveMany_safe (n : Nat) (p : Part) : p.Safe (Part.serveMany n p) := by
  induction n generalizing p with
  | zero => exact .refl p
  | succ n ih => exact p.serveNext_safe.trans (ih _)

theorem Part.settle_safe (p : Part) : p.Safe p.settle := Part.serveMany_safe _ p

theorem Part.await_safe (p : Part) : p.Safe p.await := Part.safe_ite _ (fun _ => p.settle_safe) fun _ => .refl p

/-- With no request waiting there is nothing to wait for (R118). -/
theorem Part.settle_of_none (p : Part) (h : p.slots.requests = []) : p.settle = p := by
  unfold Part.settle
  rw [h]
  rfl

theorem Part.await_of_none (p : Part) (h : p.slots.requests = []) : p.await = p := by
  unfold Part.await
  rw [p.settle_of_none h]
  exact ite_self p

theorem Part.orderFrame_safe (k : Kind) (kind : OrderKind) (p : Part) : p.Safe (p.orderFrame k kind) := by
  unfold Part.orderFrame
  split
  · exact .refl p
  · split
    · split
      · split
        · exact (p.dropSup_keeps.trans (Part.queueTask_keeps _ _)).safe
        · exact (p.dropSup_keeps.safe.trans (Part.await_safe _)).trans (Part.takeOrder_keeps _ _ _ _).safe
      · exact .refl p
    · exact .refl p

theorem Part.haltFrame_safe (p : Part) : p.Safe p.haltFrame := by
  unfold Part.haltFrame
  split
  · exact .refl p
  · split
    · exact Part.safe_ite _ (fun _ => (p.dropSup_keeps.safe.trans (Part.await_safe _)).trans
        (Part.takeHalt_keeps _ _ _).safe) fun _ => .refl p
    · exact .refl p

theorem Part.broadcastHaltFrame_safe (p : Part) : p.Safe p.broadcastHaltFrame := by
  unfold Part.broadcastHaltFrame
  split
  · exact .refl p
  · split
    · exact Part.safe_ite _ (fun _ => (p.dropSup_keeps.safe.trans (Part.await_safe _)).trans
        (Part.takeBroadcastHalt_keeps _ _).safe) fun _ => .refl p
    · exact .refl p

theorem Part.manage_safe (k : Kind) (want : List Byte → Bool) (serve : Frame → Part → Part) (p : Part)
    (h : ∀ f q, Part.Safe q (serve f q)) : p.Safe (p.manage k want serve) := by
  unfold Part.manage
  split
  · exact .refl p
  · exact p.dropSup_keeps.safe.trans (Part.safe_ite _ (fun _ => h _ _) fun _ => (Part.refuse_keeps _ _ _ _).safe)

theorem Part.manageSlots_safe (k : Kind) (want : List Byte → Bool) (serve : Frame → Part → Part) (p : Part)
    (h : ∀ f q, Part.Safe q (serve f q)) : p.Safe (p.manageSlots k want serve) :=
  p.manage_safe k want _ fun f q =>
    Part.safe_ite _ (fun _ => h f q) fun _ => ((q.hold_keeps (some f)).trans (Part.queueTask_keeps _ _)).safe

theorem Part.parameterFrame_safe (p : Part) : p.Safe p.parameterFrame :=
  Part.safe_ite _ (fun _ => p.manageSlots_safe _ _ _ serveParams_safe) fun _ => p.manage_safe _ _ _ serveParams_safe

theorem Part.tableReadFrame_safe (p : Part) : p.Safe p.tableReadFrame :=
  Part.safe_ite _ (fun _ => p.manageSlots_safe _ _ _ fun f q => (serveTableRead_keeps f q).safe)
    fun _ => p.manage_safe _ _ _ fun f q => (serveTableRead_keeps f q).safe

theorem Part.allocateFrame_safe (p : Part) : p.Safe p.allocateFrame := by
  unfold Part.allocateFrame
  extract_lets busy
  split
  · exact Part.safe_ite _ (fun _ => .refl p) fun _ => ((p.hold_keeps none).trans (serveAllocate_keeps _ _)).safe
  · exact p.manage_safe _ _ _ fun f q =>
      Part.safe_ite _ (fun _ => (q.hold_keeps (some f)).safe) fun _ => (serveAllocate_keeps f q).safe

theorem Part.positionFrame_safe (p : Part) : p.Safe p.positionFrame := by
  unfold Part.positionFrame
  split
  · exact .refl p
  · split
    · exact ((p.dropCrane_keeps.safe.trans (Part.await_safe _)).trans (Part.positionTelegram_keeps _ _ _ _ trivial).safe).trans
        (Part.toTelemetry_keeps _ _).safe
    · exact .refl p

theorem Part.loadFrame_safe (p : Part) : p.Safe p.loadFrame := by
  unfold Part.loadFrame
  split
  · exact .refl p
  · split
    · exact ((p.dropCrane_keeps.safe.trans (Part.await_safe _)).trans (Part.loadTelegram_keeps _ _ _ _).safe).trans
        (Part.toTelemetry_keeps _ _).safe
    · exact .refl p

theorem Part.doneFrame_safe (p : Part) : p.Safe p.doneFrame := by
  unfold Part.doneFrame
  split
  · exact .refl p
  · split
    · exact ((p.dropCrane_keeps.safe.trans (Part.await_safe _)).trans (Part.takeDone_keeps _ _ _).safe).trans
        (Part.toTelemetry_keeps _ _).safe
    · exact .refl p

theorem Part.bayReportFrame_safe (p : Part) : p.Safe p.bayReportFrame := by
  unfold Part.bayReportFrame
  split
  · exact .refl p
  · split
    · exact (p.dropCrane_keeps.safe.trans (Part.await_safe _)).trans (Part.bayReport_keeps _ _ _ trivial).safe
    · exact .refl p

theorem Part.whenDue_safe (p : Part) (due : Part → Bool) (act : Part → Part) (h : ∀ q, due q = true → q.Safe (act q)) :
    p.Safe (p.whenDue due act) := by
  unfold Part.whenDue
  split
  · exact .refl p
  · split
    · next h' => exact p.await_safe.trans (h _ h')
    · exact p.await_safe

theorem Part.queuePending_safe (p : Part) : p.Safe p.queuePending :=
  p.whenDue_safe _ _ fun q h => (q.takePending_keeps h).safe

theorem Part.expireReservation_safe (p : Part) (i : Nat) : p.Safe (p.expireReservation i) := by
  unfold Part.expireReservation
  split
  · exact .refl p
  · exact Part.safe_ite _ (fun _ => (serveReservationExpiry_keeps i p).safe) fun _ => (p.queueTask_keeps _).safe

theorem Part.expireStale_safe (p : Part) (c : Fin 4) : p.Safe (p.expireStale c) :=
  p.whenDue_safe _ _ fun q _ => (q.becomeStale_keeps c trivial).safe

theorem Part.expireHoldOf_safe (p : Part) (k : Nat) : p.Safe (p.expireHoldOf k) :=
  p.whenDue_safe _ _ fun q _ => (q.expireHold_keeps k).safe

theorem Part.expireWeigh_safe (p : Part) (c : Fin 4) : p.Safe (p.expireWeigh c) :=
  p.whenDue_safe _ _ fun q _ => (q.weighUnsettled_keeps c).safe

theorem Part.expireRearm_safe (p : Part) (b : Fin 6) : p.Safe (p.expireRearm b) :=
  p.whenDue_safe _ _ fun q _ => (q.rearm_keeps b).safe

theorem Part.expireFlash_safe (p : Part) (b : Fin 6) : p.Safe (p.expireFlash b) :=
  Part.safe_ite _ (fun _ => (p.flash_keeps b).safe) fun _ => .refl p

theorem Part.expireDwell_safe (p : Part) : p.Safe p.expireDwell :=
  p.whenDue_safe _ _ fun q _ => by
    cases q.bays.scan with
    | none => exact .refl q
    | some sc => exact (q.endDwell_keeps sc trivial).safe

theorem Part.sampleInputs_safe (p : Part) (s : Samples) : p.Safe (p.sampleInputs s) :=
  p.whenDue_safe _ _ fun q _ => (q.takeSamples_keeps s trivial).safe

theorem Part.inputAccepted_safe (p : Part) (n : Nat) : p.Safe (p.inputAccepted n) :=
  p.whenDue_safe _ _ fun q _ => (q.acceptLevel_keeps n trivial).safe

theorem Part.serveRequest_safe (p : Part) : p.Safe p.serveRequest := by
  unfold Part.serveRequest
  split
  · exact .refl p
  · exact .refl p
  · exact p.serveNext_safe

theorem Part.finishSearch_safe (p : Part) : p.Safe p.finishSearch := by
  unfold Part.finishSearch
  split
  · exact p.serveNext_safe
  · exact .refl p

end Sys2Proof.Machine
end

