-- ==== Sys2Proof/Laws/Reach.lean ====
section
/-! SUPPORT. How a command reaches its unit: in the situations of Safety.lean each command's meaning is the unit's own operation on
the part without the frame at the head of its FIFO. Proofs about a command cite these lemmas instead of unfolding the service. -/

namespace Sys2Proof.Machine

theorem State.act_reset (s : State) (f : Part → Part) (h : s.part.inReset = true) : s.act f = .next s := by
  simp [State.act, h]

theorem State.act_run (s : State) (f : Part → Part) (h : s.part.inReset = false) :
    s.act f = .next (s.withPart (f s.part)) := by
  simp [State.act, h, State.withPart]

/-! ## Kinds -/

theorem kindOf_code (k : Kind) : kindOf k.code = some k := by cases k <;> rfl

/-! ## Management frames -/

theorem classifySup_of_request {s : State} {k : Kind} {f : Frame} (h : s.Request k f) (hk : k.isManagement = true) :
    s.part.classifySup f = .responder k := by
  obtain ⟨_, _, hkind, hd, hs, _, _⟩ := h
  simp [Part.classifySup, hkind, kindOf_code, hk, hd, hs]

theorem managementHead_of_request {s : State} {k : Kind} {f : Frame} (h : s.Request k f) (hk : k.isManagement = true)
    (want : List Byte → Bool) (hw : want f.payload = true) : s.part.managementHead k want = some f := by
  have hc := classifySup_of_request h hk
  obtain ⟨_, hh, _, _, _, hheld, hreply⟩ := h
  simp [Part.managementHead, hh, hc, Part.takesManagement, hheld, hreply, hw]

/-- A management frame at the head is taken: served when it fits its form, answered MALFORMED otherwise (R176). -/
theorem manage_of_request {s : State} {k : Kind} {f : Frame} (h : s.Request k f) (hk : k.isManagement = true)
    (want : List Byte → Bool) (hw : want f.payload = true) (serve : Frame → Part → Part) :
    s.part.manage k want serve =
      if formFits k f.payload then serve f s.part.dropSup else s.part.dropSup.refuse f .malformed [] := by
  simp [Part.manage, managementHead_of_request h hk want hw]

/-- A management frame of the slot map is taken, and served at once when no request waits (R118, R176). -/
theorem manageSlots_of_request {s : State} {k : Kind} {f : Frame} (h : s.Request k f) (hk : k.isManagement = true)
    (want : List Byte → Bool) (hw : want f.payload = true) (serve : Frame → Part → Part) (hq : s.Quiet) :
    s.part.manageSlots k want serve =
      if formFits k f.payload then serve f s.part.dropSup else s.part.dropSup.refuse f .malformed [] := by
  simp [Part.manageSlots, manage_of_request h hk want hw, hq]

theorem dropSup_await {s : State} (hq : s.Quiet) : s.part.dropSup.await = s.part.dropSup := Part.await_of_none _ hq

theorem dropCrane_await {s : State} (hq : s.Quiet) : s.part.dropCrane.await = s.part.dropCrane := Part.await_of_none _ hq

/-! ## Orders -/

theorem isManagement_of_isOrder {k : Kind} (h : k.isOrder = true) : k.isManagement = false := by
  cases k <;> simp_all [Kind.isOrder, Kind.isManagement]

theorem classifySup_of_order {s : State} {k : Kind} {c : Fin 4} {f : Frame} (h : s.OrderFor k c f) (hk : k.isOrder = true) :
    s.part.classifySup f = .order k c := by
  obtain ⟨_, _, hkind, hc, hd, _⟩ := h
  simp [Part.classifySup, hkind, kindOf_code, hk, isManagement_of_isOrder hk, hc, hd]

theorem gateTakes_of_quiet {s : State} (hv : s.part.gate.verdicts = []) (hq : s.Quiet) : s.part.gateTakes = true := by
  simp [Part.gateTakes, Part.gateWaits, hv, hq]

/-- An order at the head goes to the gate (R55, R163). -/
theorem orderFrame_of_order {s : State} {k : Kind} {c : Fin 4} {f : Frame} (h : s.OrderFor k c f) (hk : k.isOrder = true)
    (hq : s.Quiet) (kind : OrderKind) : s.part.orderFrame k kind = s.part.dropSup.takeOrder c kind f.payload := by
  have hcl := classifySup_of_order h hk
  obtain ⟨_, hh, _, _, _, hv⟩ := h
  simp [Part.orderFrame, Part.orderWaits, hh, hcl, gateTakes_of_quiet hv hq, dropSup_await hq, hq]

/-- A HALT at the head goes to the gate (R65). -/
theorem haltFrame_of_order {s : State} {c : Fin 4} {f : Frame} (h : s.OrderFor .halt c f) (hq : s.Quiet) :
    s.part.haltFrame = s.part.dropSup.takeHalt c f.payload := by
  have hcl := classifySup_of_order h rfl
  obtain ⟨_, hh, _, _, _, hv⟩ := h
  simp [Part.haltFrame, hh, hcl, gateTakes_of_quiet hv hq, dropSup_await hq]

/-! ## Telegrams -/

theorem craneAt_range {p : Part} {b : Byte} {c : Fin 4} (h : p.craneAt b = some c) :
    b.toNat = c.val + 1 ∧ (p.entry c).configured = true := by
  have := List.find?_some h
  simp at this
  exact ⟨this.2, this.1⟩

theorem classifyCrane_of_telegram {s : State} {k : Kind} {c : Fin 4} {f : Frame} (h : s.TelegramFrom k c f) :
    (k = .position → s.part.classifyCrane f = .position c) ∧ (k = .load → s.part.classifyCrane f = .load c)
      ∧ (k = .done → ∀ d, readDone f.payload = some d → s.part.classifyCrane f = .done c d) := by
  obtain ⟨_, _, hkind, hc, h0, h31, hs⟩ := h
  refine ⟨?_, ?_, ?_⟩
  · rintro rfl
    simp [Part.classifyCrane, Frame.management, hkind, kindOf_code, Kind.isManagement, hs, hc]
    exact ⟨h0, h31⟩
  · rintro rfl
    simp [Part.classifyCrane, Frame.management, hkind, kindOf_code, Kind.isManagement, hs, hc]
    exact ⟨h0, h31⟩
  · rintro rfl d hd
    simp [Part.classifyCrane, Frame.management, hkind, kindOf_code, Kind.isManagement, hs, hc, hd]
    exact ⟨h0, h31⟩

/-- A POSITION at the head goes to the tracker and to TELEMETRY (R6, R166). -/
theorem positionFrame_of_telegram {s : State} {c : Fin 4} {f : Frame} (h : s.TelegramFrom .position c f) (hq : s.Quiet) :
    s.part.positionFrame = (s.part.dropCrane.positionTelegram c f.seq f.payload).forwarded f := by
  simp [Part.positionFrame, h.2.1, (classifyCrane_of_telegram h).1 rfl, dropCrane_await hq, Part.forwarded]

/-- A LOAD at the head goes to the weigher and to TELEMETRY (R78, R166). -/
theorem loadFrame_of_telegram {s : State} {c : Fin 4} {f : Frame} (h : s.TelegramFrom .load c f) (hq : s.Quiet) :
    s.part.loadFrame = (s.part.dropCrane.loadTelegram c f.seq f.payload).forwarded f := by
  simp [Part.loadFrame, h.2.1, (classifyCrane_of_telegram h).2.1 rfl, dropCrane_await hq, Part.forwarded]

/-- A well-formed DONE at the head goes to the gate and to TELEMETRY (R63, R166). -/
theorem doneFrame_of_telegram {s : State} {c : Fin 4} {f : Frame} {d : RawDone} (h : s.TelegramFrom .done c f) (hq : s.Quiet)
    (hd : readDone f.payload = some d) : s.part.doneFrame = (s.part.dropCrane.takeDone c d).forwarded f := by
  simp [Part.doneFrame, h.2.1, (classifyCrane_of_telegram h).2.2 rfl d hd, dropCrane_await hq, Part.forwarded]

/-- A BAY_REPORT at the head goes to the bay controller (R138, R166). -/
theorem bayReportFrame_of_report {s : State} {b : Fin 6} {f : Frame} (h : s.ReportFrom b f) (hq : s.Quiet) :
    s.part.bayReportFrame = s.part.dropCrane.bayReport b f.payload := by
  obtain ⟨_, hh, hkind, hb, h0, h31, hs⟩ := h
  have hcl : s.part.classifyCrane f = .bayReport b := by
    simp [Part.classifyCrane, Frame.management, hkind, kindOf_code, Kind.isManagement, hs, hb]
    exact ⟨h0, h31⟩
  simp [Part.bayReportFrame, hh, hcl, dropCrane_await hq]

/-! ## Events that fall due -/

/-- An event that falls due with nothing waiting at the slot map is taken at once (R118). -/
theorem whenDue_of_quiet {s : State} (hq : s.Quiet) (due : Part → Bool) (act : Part → Part) :
    s.part.whenDue due act = if due s.part then act s.part else s.part := by
  cases h : due s.part <;> simp [Part.whenDue, Part.await_of_none _ hq, h]

/-- The pending command that has waited longest is forwarded once NORMAL has an entry free (R61). -/
theorem queuePending_of_quiet {s : State} {c : Fin 4} {rest : List (Fin 4)} {o : Order} {cmd : Command} (hq : s.Quiet)
    (hn : s.part.link.normal.length < 16) (ht : s.part.gate.pendingTurn = c :: rest) (ho : s.part.activeOrder c = some o)
    (hc : o.pending = some cmd) :
    s.part.queuePending = { s.part with gate := { s.part.gate with pendingTurn := rest } }.forwardCommand c cmd := by
  have hdue : s.part.pendingDue = true := by
    simp [Part.pendingDue, Link.normalRoom, Config.normalCapacity, ht, hn]
  have ho' : Part.activeOrder { s.part with gate := { s.part.gate with pendingTurn := rest } } c = some o := ho
  simp [Part.queuePending, whenDue_of_quiet hq, hdue, Part.takePending, ht, ho', hc]

/-! ## Operations that have nothing to do -/

theorem Part.endOrder_of_none (p : Part) (c : Fin 4) (b : Bool) (v : Option (VerdictKind × Option Reason))
    (h : p.activeOrder c = none) : p.endOrder c b v = p := by
  simp [Part.endOrder, h]

theorem Part.withdrawClaim_of_none (p : Part) (c : Fin 4) (h : p.claim c = none) : p.withdrawClaim c = p := by
  simp [Part.withdrawClaim, h]

theorem Part.clearDest_of_none (p : Part) (c : Fin 4) (h : (p.hook c).dest = none) : p.clearDest c = p := by
  simp [Part.clearDest, h]

theorem Part.clearSource_of_none (p : Part) (c : Fin 4) (h : (p.hook c).source = none) : p.clearSource c = p := by
  simp [Part.clearSource, h]

/-! ## The end of an order -/

/-- What the end of the active order of a crane without a claim does (R64): the order is over, its commands leave NORMAL, a source left
on an EMPTY hook and the destination it set are cleared, and the verdict is given. -/
theorem Part.endOrder_of_active (p : Part) (c : Fin 4) (o : Order) (k : VerdictKind) (why : Option Reason)
    (ho : p.activeOrder c = some o) (hc : p.claim c = none) :
    p.endOrder c false (some (k, why)) =
      let ended := { p with
        link := p.link.withoutCommands c
        gate := { p.gate with
          pendingTurn := p.gate.pendingTurn.filter fun d => d != c
          orders := p.gate.orders.set c (some { o with state := .ended, pending := none }) } }
      let p := if (p.hook c).state == .empty then ended.clearSource c else ended
      let p := if o.setDest && !false then p.clearDest c else p
      p.verdict c o.tag k why o.target.x o.permitted := by
  unfold Part.endOrder
  rw [ho]
  simp only []
  rw [Part.withdrawClaim_of_none (Part.dropTurn (p.setOrder c _) c) c hc]
  rfl

/-! ## A state derived once -/

/-- With the driver safe the state is derived once (R144, R147). -/
theorem Part.derive_of_safe (p : Part) (b : Fin 6) (h : p.lines.driver[b].accepted = .active) : p.derive b = p.deriveOnce b := by
  have hd : (p.deriveOnce b).driverSafe b = true := by
    have : (p.deriveOnce b).lines.driver = p.lines.driver := by
      rcases (p.deriveOnce_keeps (S := ⟨fun _ => False, False, False, False⟩) b).inputs with h | h
      · exact h.elim
      · exact h.1
    simp [Part.driverSafe, this]
    exact h
  simp [Part.derive, hd]

end Sys2Proof.Machine
end

