-- ==== Sys2Proof/Tests/Slice0.lean ====
section
/-! SUPPORT. Tests: the well-formedness checks, the worked examples of the spec, and for each statement a situation that meets its
hypotheses. Expected values come from the spec's text, named at each test. -/

namespace Sys2Proof.Machine

/-! ## Ill-formed commands are refused -/

theorem test_wellFormed_refuses :
    (Instr.frameReceived .crane []).wellFormed = false ∧ (Instr.reservationExpiry 1536).wellFormed = false
      ∧ (Instr.inputLevelAccepted 4).wellFormed = false ∧ (Instr.inputLevelAccepted 30).wellFormed = false
      ∧ (Instr.checkDelayEnd 24).wellFormed = false ∧ (Instr.frameLengthAbove60 .crane 60).wellFormed = false := by decide

theorem test_wellFormed_admits :
    (Instr.frameReceived .crane [0xA7]).wellFormed ∧ (Instr.reservationExpiry 1535).wellFormed
      ∧ (Instr.inputLevelAccepted 29).wellFormed ∧ (Instr.checkDelayEnd 21).wellFormed
      ∧ (Instr.frameLengthAbove60 .crane 61).wellFormed := by decide

/-! ## Worked examples of the spec -/

/-- R162: the check over the ASCII digits 1 to 9. -/
theorem test_check_of_digits : crc [0x31, 0x32, 0x33, 0x34, 0x35, 0x36, 0x37, 0x38, 0x39] = 0x6F91 := by decide +kernel

/-- 00, Conventions: newer sequences, modulo 256. -/
theorem test_newer : newer 2 254 = true ∧ newer 130 2 = false ∧ newer 129 2 = true ∧ newer 7 7 = false := by decide

/-- R16, R17: the offset −2, and the largest stopping distance. -/
theorem test_stages : extrapolate 100 (-1001) 1 = 98 ∧ stoppingDistance 4095 2000 100 = 92036 := by decide

/-! ## A small yard -/

def testCrane : CraneEntry :=
  ⟨true, 5000, 5000, 1000, 500, 500, 2000, 0, 40000, 12000, 30000, 10000, true, .normal, 2000, 300⟩

def testSeen (x : Nat) : CraneRecord :=
  ⟨.tracked, some ⟨5, x, 10000, 12000, 0, 0, .opened, .ready, 0, 0⟩,
    some ⟨x - 6000, x + 6000, some (x / 65536, x / 65536), 0⟩, 0, 0, 0, 0⟩

def testZone (k : Nat) (grant : Option (Fin 4)) : Zone :=
  { Zone.reset with defined := true, start := 65536 * k, loaded := true, grant := grant }

def testCoil (id weight : Nat) : Coil := ⟨some (BitVec.ofNat 32 id), weight, .good, some 1500, some 1200, 3⟩

def testGeo (x : Nat) : Geometry := ⟨0, 0, .floor, x, 20000, 900, 2000, 2000⟩

def testHeld : Reservation := ⟨9, some 8, 15000, none, none, 3, 5000, false⟩

def testPlan : Plan :=
  ⟨none, 5000, 5000, 6000, 1300, 60000, 60000, 90000, 0, false, [⟨3000, none, .planned⟩], 5000, 5000, 0, false⟩

def testReport : Report := ⟨true, true, none, 10000, true, 0⟩

def testBay : BayEntry :=
  { BayEntry.reset 0 with configured := true, mask := 2, axle := 40000, yLo := 27500, yHi := 32500, cab := 3000 }

/-- Two cranes in RUN, at 30,000 and 230,000; four zones; four slots; one bay. -/
def testYard : Part :=
  let p := Part.reset 24
  { p with
    tracker := ⟨#v[testCrane, testCrane, CraneEntry.reset, CraneEntry.reset],
      #v[testSeen 30000, testSeen 230000, CraneRecord.reset, CraneRecord.reset], p.tracker.crossed⟩
    arbiter := ⟨(((p.arbiter.zones.set 0 (testZone 0 (some 0))).set 1 (testZone 1 none)).set 2 (testZone 2 none)).set 3
      (testZone 3 (some 1)), #v[some ⟨0, 0⟩, some ⟨3, 3⟩, none, none], p.arbiter.claims⟩
    slots := ⟨p.slots.blocks.set 0 ⟨true, 1000000, 0, 300⟩,
      [(0, ⟨testGeo 35000, .occupied (testCoil 7 20000) 0⟩), (1, ⟨testGeo 36000, .free⟩),
        (2, ⟨testGeo 37000, .reserved testHeld⟩), (3, ⟨testGeo 38000, .incoming testHeld 0 15000⟩)], 10, []⟩
    bays := ⟨p.bays.entries.set 0 testBay,
      p.bays.records.set 0 { BayRecord.reset with state := .ready, last := some testReport, plan := some testPlan },
      some ⟨0, 0, false, false⟩⟩
    lines := { p.lines with driver := Vector.replicate 6 ⟨.active, true, 3⟩ }
    mgmt := { p.mgmt with mode := .run } }

/-- The yard in STARTUP. -/
def testStart : Part := { testYard with mgmt := { testYard.mgmt with mode := .startup } }

/-- A part with nothing waiting. -/
def testAlone (p : Part) : State := ⟨p, []⟩

/-- A frame at the head of the supervisor-port FIFO. -/
def testSup (p : Part) (f : Frame) : State := ⟨p.onPort .supervisor fun r => { r with fifo := [f] }, []⟩

/-- A frame at the head of the crane-port FIFO. -/
def testCranePort (p : Part) (f : Frame) : State := ⟨(p.onPort .crane fun r => { r with fifo := [f] }).judgeHead, []⟩

/-- A management frame for the part. -/
def testManage (k : Kind) (payload : List Byte) : Frame := ⟨24, 0, k.code, 1, payload, 0⟩

/-- An order frame for crane 0. -/
def testOrder (k : Kind) (payload : List Byte) : Frame := ⟨1, 0, k.code, 1, payload, 0⟩

/-- A telegram of crane 0. -/
def testTelegram (k : Kind) (payload : List Byte) : Frame := ⟨0, 1, k.code, 6, payload, 0⟩

/-- The yard keeps the laws of the part. -/
theorem test_yard_is_sound :
    testYard.UrgentUnique ∧ testYard.StopLinesFollow ∧ testYard.SlotsSorted ∧ testYard.WithinCapacity := by decide

/-! ## A situation for each statement -/

theorem witness_StepRunsTheFrontCommand :
    (⟨testYard, [.dwellEnd]⟩ : State).pending = .dwellEnd :: [] ∧ (testAlone testYard.holdInReset).part.inReset = true
      ∧ testYard.due = some .dwellEnd ∧ (Part.reset 24).due = none := by decide

theorem witness_EveryStepKeepsTheLaws :
    ∃ t, step ⟨testYard, [.frameSent .crane]⟩ = .next t ∧ testYard.UrgentUnique ∧ testYard.StopLinesFollow
      ∧ testYard.SlotsSorted ∧ testYard.WithinCapacity := ⟨_, rfl, by decide⟩

theorem witness_TablesChangeOnlyByTheirCommands :
    ∃ t, exec .dwellEnd (testAlone testYard) = .next t ∧ startsPart .dwellEnd = false ∧ (testAlone testYard).Quiet :=
  ⟨_, rfl, by decide⟩

theorem witness_TableEntriesReadBack :
    (testCrane.inRange = true ∧ testCrane.yMax < 65536 ∧ testCrane.parkY < 65536 ∧ testCrane.tong < 65536)
      ∧ ((testZone 3 none).entry.start ≤ 262143 ∧ (testZone 3 none).entry.cap ≤ 4095)
      ∧ ((testGeo 5).row ≤ 15 ∧ (testGeo 5).tier.supports.1 < 1536 ∧ (testGeo 5).tier.supports.2 < 1536
        ∧ (testGeo 5).x ≤ 262143 ∧ (testGeo 5).y < 65536 ∧ (testGeo 5).z ≤ 16383 ∧ 1 ≤ (testGeo 5).maxDiameter
        ∧ (testGeo 5).maxDiameter < 65536 ∧ 1 ≤ (testGeo 5).maxWidth ∧ (testGeo 5).maxWidth < 65536)
      ∧ (testBay.inRange = true ∧ testBay.yHi < 65536 ∧ testBay.scaleTolerance < 65536)
      ∧ paramInRange 11 255 = true ∧ paramInRange 0 262144 = true ∧ (-8388608 : Int) ≤ -8388608 := by decide

theorem witness_StartAndResetLine :
    (testAlone testYard.holdInReset).part.inReset = true ∧ (testAlone testYard).part.inReset = false
      ∧ startsPart .goto = false := by decide

/-- The receiver with bytes of a frame taken. -/
def testInFrame (bytes : List Byte) : State :=
  testAlone (testYard.onPort .crane fun r => { r with rx := .inFrame bytes })

theorem witness_ReceiverChecksFrames :
    (testYard.inReset = false ∧ ((testAlone testYard).part.port .crane).rx = .hunting
        ∧ (testTelegram .position (le 15 0)).payload.length ≤ 60)
      ∧ (0xA7 : Byte) ∉ [0x00, 0x17]
      ∧ ((testInFrame [1, 2, 3, 4]).part.port .crane).rx = .inFrame [1, 2, 3, 4] ∧ [1, 2, 3, (4 : Byte)].length = 4
      ∧ 60 < (61 : Byte).toNat := by decide

/-- A frame for a foreign station, kind unknown. -/
def testForeign (dest src : Byte) : Frame := ⟨dest, src, 0x99, 1, [], 0⟩

/-- The yard with a number of frames in NORMAL and TELEMETRY. -/
def testFilled (normal telemetry : Nat) : Part :=
  { testYard with link := { testYard.link with
    normal := List.replicate normal ⟨.transparent, testForeign 9 9⟩
    telemetry := List.replicate telemetry (testForeign 0 9) } }

theorem witness_FramesAreClassified :
    let f := testTelegram .position []
    let g : Frame := ⟨0, 16, Kind.bayReport.code, 1, le 9 3, 0⟩
    let two := testYard.onPort .crane fun r => { r with fifo := [f, g] }
    (testCranePort testYard f).part.link.sender = some (.crane 0) ∧ two.link.crane.fifo = f :: g :: []
      ∧ two.dropCrane.link.sender = some (.bay 0) := by decide

/-- R164: a crane entry written while a telegram stands at the head does not change where it goes; the next one's source is foreign. -/
theorem test_configured_is_judged_at_the_head :
    let f := testTelegram .position []
    let p := (testCranePort testYard f).part.setEntry 0 CraneEntry.reset
    p.classifyCrane f = .position 0 ∧ p.dropCrane.classifyCrane f = .telemetry false := by decide

theorem witness_FramesForNoUnitGoOn :
    ((testSup (testFilled 15 0) (testForeign 9 0)).part.classifySup (testForeign 9 0) = .forward
        ∧ (testFilled 15 0).link.normal.length < 16 ∧ 16 ≤ (testFilled 16 0).link.normal.length
        ∧ (testSup testYard (testForeign 9 0)).part.supHead = some (testForeign 9 0))
      ∧ testYard.classifySup (testForeign 24 0) = .refused ∧ testYard.classifySup (testForeign 1 0) = .unclaimed
      ∧ testYard.classifyCrane (testForeign 0 9) = .telemetry false
      ∧ testYard.classifyCrane (testForeign 0 1) = .telemetry true
      ∧ testYard.classifyCrane (testManage .hold []) = .refused ∧ testYard.classifyCrane (testForeign 9 31) = .conflict
      ∧ (testCranePort testYard (testForeign 0 9)).part.craneHead = some (testForeign 0 9) := by decide

theorem witness_FramesForNoUnitGoOn_room :
    (testFilled 0 31).link.MakesRoom (testForeign 0 9) (List.replicate 31 (testForeign 0 9)) 0
      ∧ (testFilled 0 32).link.MakesRoom (testForeign 0 9) (List.replicate 31 (testForeign 0 9)) 1
      ∧ (testFilled 0 32).link.MakesRoom (testForeign 0 8) (List.replicate 31 (testForeign 0 9)) 1 :=
  ⟨.inl (by decide), .inr ⟨by decide, by decide, .inl ⟨[], testForeign 0 9, List.replicate 31 (testForeign 0 9), by decide⟩⟩,
    .inr ⟨by decide, by decide, .inr (by decide)⟩⟩

theorem witness_SentFrameIsFollowedByTheNext :
    ((startPart 0 3).link.sup.tx.isSome = true ∧ (startPart 0 3).inReset = false)
      ∧ ((testFilled 2 0).onLink Link.startCrane).link.crane.tx = some (testForeign 9 9) := by decide

/-- The yard with a verdict, an answer and a notice waiting. -/
def testWaiting : Part :=
  { testYard with
    gate := { testYard.gate with verdicts := [⟨0, 1, .passed, none, 0, 0⟩] }
    engine := { testYard.engine with answers := [⟨0x63, 1, .busy, none, []⟩] }
    mgmt := { testYard.mgmt with notices := [⟨.setDown, 0, 0, 0, 0, 0⟩], reply := some ⟨0x61, 1, .ok, none, []⟩ } }

theorem witness_ReplyEntryGoesToTheNextProducer :
    testWaiting.inReset = false ∧ testWaiting.link.reply.length < 16
      ∧ testWaiting.link.turn = [] ++ .gate :: [.responder, .engine, .notices] ∧ testWaiting.link.turn.Nodup
      ∧ (∀ d, (testWaiting.oldest d).isSome = true) ∧ ∀ d, (testYard.oldest d).isNone = true := by
  refine ⟨rfl, by decide, rfl, by decide, fun d => ?_, fun d => ?_⟩ <;> cases d <;> rfl

/-- A MOVE_TO that waits for NORMAL. -/
def testCommand : Command := ⟨.moveTo, 40000, 10000, 12000, 0⟩

/-- An active order of crane 0. -/
def testActive (state : OrderState) (pending : Option Command) : Order :=
  ⟨.goto, 77, some (.coord 40000 10000), none, ⟨40000, 10000, 12000⟩, 40000, .normal, 0, state, none, some 3, false, pending⟩

theorem witness_PendingCommandEntersNormal :
    let p := { testYard.setOrder 0 (some (testActive .partly (some testCommand))) with
      gate := { (testYard.setOrder 0 (some (testActive .partly (some testCommand)))).gate with pendingTurn := [0] } }
    p.inReset = false ∧ (testAlone p).Quiet ∧ p.link.normal.length < 16 ∧ p.gate.pendingTurn = 0 :: []
      ∧ p.activeOrder 0 = some (testActive .partly (some testCommand)) ∧ testCommand.verb = .moveTo := by decide

/-- The yard with a defined entry point 0. -/
def testEntry : Part :=
  { testYard with gate := { testYard.gate with entryPoints := testYard.gate.entryPoints.set 0 ⟨true, 35000, 9000, 800⟩ } }

/-- The yard with a weighed coil on hook 0. -/
def testWeighed : Part :=
  testYard.setHook 0 { testYard.hook 0 with state := .weighed, gripper := .closed, coil := some (testCoil 8 15000) }

/-- An order of crane 0 to a location, FORWARDED with its command pending. -/
def testPending (p : Part) (k : OrderKind) (loc : Location) (t : Point) (verb : Verb) : Part :=
  let o : Order := { testActive .forwarded (some ⟨verb, t.x, t.y, t.z, 12000⟩) with
    kind := k, loc := some loc, data := some ⟨none, 0, none, none, 0⟩, target := t, permitted := t.x }
  let p := p.setOrder 0 (some o)
  { p with gate := { p.gate with pendingTurn := [0, 1] } }

/-- What the clauses on a pending LIFT_AT or LOWER_AT ask: the order, the verb, and what checks 7 and 8, and checks 9 and 10, give. -/
def testForwards (p : Part) (verb : Verb) (place target : Option Reason) : Bool :=
  decide ((p.hook 0).dest = none ∧ p.claim 0 = none ∧ (p.hook 0).source = none ∧ p.gate.pendingTurn = [0, 1])
    && (p.activeOrder 0).any fun o => decide (o.state = .forwarded ∧ o.pending.map Command.verb = some verb
      ∧ p.placeChecks 0 o.kind o.loc = place ∧ p.targetChecks 0 o.kind o.target = target
      ∧ p.orderChecks 0 o.kind o.loc o.target = place.or target)

/-- The part with zone 0 held. -/
def testHolding (p : Part) : Part := p.setZone 0 { p.zone 0 with hold := some .indefinite }

theorem witness_PendingCommandEntersNormal_at_a_location :
    (testForwards (testPending testYard .pick (.slot 0) ⟨35000, 20000, 900⟩ .liftAt) .liftAt none none = true
        ∧ testYard.slots.slot 0 = some ⟨testGeo 35000, .occupied (testCoil 7 20000) 0⟩)
      ∧ testForwards (testPending testEntry .pick (.entry 0) ⟨35000, 9000, 800⟩ .liftAt) .liftAt none none = true
      ∧ (testForwards (testPending testWeighed .place (.slot 2) ⟨37000, 20000, 900⟩ .lowerAt) .lowerAt none none = true
        ∧ testWeighed.slots.slot 2 = some ⟨testGeo 37000, .reserved testHeld⟩)
      ∧ (testForwards (testPending testWeighed .place (.slot 1) ⟨36000, 20000, 900⟩ .lowerAt) .lowerAt none none = true
        ∧ testWeighed.slots.slot 1 = some ⟨testGeo 36000, .free⟩)
      ∧ testForwards (testPending testWeighed .place (.bayPos 0 0) ⟨37000, 30000, 1300⟩ .lowerAt) .lowerAt none none = true := by
  decide

/-- The target's zone held between check 8 and the command (check 10), or the slot not OCCUPIED (check 8). -/
theorem witness_PendingCommandEntersNormal_refused :
    let held := testHolding testYard
    let placing := testHolding testWeighed
    testForwards (testPending testYard .pick (.slot 1) ⟨36000, 20000, 900⟩ .liftAt) .liftAt (some .slotState) none = true
      ∧ (testForwards (testPending held .pick (.slot 0) ⟨35000, 20000, 900⟩ .liftAt) .liftAt none (some .zoneHeld) = true
        ∧ held.slots.slot 0 = some ⟨testGeo 35000, .occupied (testCoil 7 20000) 0⟩)
      ∧ testForwards (testPending (testHolding testEntry) .pick (.entry 0) ⟨35000, 9000, 800⟩ .liftAt) .liftAt none (some .zoneHeld)
      ∧ (testForwards (testPending placing .place (.slot 2) ⟨37000, 20000, 900⟩ .lowerAt) .lowerAt none (some .zoneHeld) = true
        ∧ placing.slots.slot 2 = some ⟨testGeo 37000, .reserved testHeld⟩ ∧ testHeld.lapsed = false
        ∧ (placing.hook 0).coil = some (testCoil 8 15000))
      ∧ (testForwards (testPending placing .place (.slot 1) ⟨36000, 20000, 900⟩ .lowerAt) .lowerAt none (some .zoneHeld) = true
        ∧ placing.slots.slot 1 = some ⟨testGeo 36000, .free⟩)
      ∧ testForwards (testPending placing .place (.bayPos 0 0) ⟨37000, 30000, 1300⟩ .lowerAt) .lowerAt none (some .zoneHeld) := by
  decide

/-- R62, R64, R109, R111: a PLACE that passes check 8 and meets a held zone (check 10) leaves its FREE slot RESERVED with number 0. -/
theorem test_failed_forwarding_leaves_a_reservation :
    ((testPending (testHolding testWeighed) .place (.slot 1) ⟨36000, 20000, 900⟩ .lowerAt).queuePending.slots.slot 1).map Slot.contents
      = some (.reserved ⟨0, some 8, 15000, some 1500, some 1200, 3, 900000, false⟩) := by decide

/-! ### Telegrams and reports -/

/-- A POSITION payload. -/
def testPosition (x : Nat) : List Byte := le 3 x ++ le 2 10000 ++ le 2 12000 ++ le 2 500 ++ le 2 0 ++ [0, 1] ++ le 2 0

theorem witness_PositionIsAccepted :
    let f := testTelegram .position (testPosition 31000)
    (testCranePort testYard f).TelegramFrom .position 0 f ∧ (testCranePort testYard f).Quiet
      ∧ (testYard.entry 0).configured = true ∧ readPosition f.payload = some ⟨31000, 10000, 12000, 500, 0, 0, 1, 0⟩
      ∧ ((testYard.record 0).last.all fun old => 1 ≤ (f.seq - old.seq).toNat && (f.seq - old.seq).toNat ≤ 127) = true := by
  decide

/-- The yard with crane 1 at a place and the pair mark of cranes 0 and 1. -/
def testPair (x : Nat) (mark : Bool) : Part :=
  let p := testYard.setRecord 1 (testSeen x)
  { p with tracker := { p.tracker with crossed := p.tracker.crossed.set 0 mark } }

/-- Cranes 0 and 1 touch when the centre of crane 1 stands at 40,000 (R13). -/
theorem witness_PositionIsAccepted_ordering :
    (testPair 40000 false).overlap 0 1 = 0 ∧ (testPair 40001 true).overlap 0 1 = -1
      ∧ (testPair 40000 true).tracker.crossed[0] = true ∧ (testPair 40001 false).tracker.crossed[0] = false
      ∧ ((testPair 40000 true).record 0).tracking = .tracked ∧ ((testPair 40000 true).record 1).tracking = .tracked
      ∧ (testYard.record 2).tracking ≠ .tracked ∧ (testYard.entry 2).configured = false
      ∧ (testYard.entry 0).configured = true ∧ (testYard.latch 0).causes.has .intrusion = false := by decide

/-- A loaded hook at the edge of the cab area of bay 0, and one millimetre outside it (R155). -/
theorem witness_PositionIsAccepted_cab :
    let at_ := fun x => testWeighed.setRecord 0
      { testSeen x with last := some ⟨5, x, 27500, 12000, 0, 0, .closed, .ready, 0, 0⟩ }
    ((at_ 43000).craneX 0 = 43000 ∧ (at_ 43000).inCabArea 43000 27500 = true ∧ ((at_ 43000).hook 0).state = .weighed)
      ∧ (at_ 43001).inCabArea 43001 27500 = false := by decide

theorem witness_PositionIsAccepted_grant :
    testYard.run 0 = some ⟨0, 0⟩ ∧ testYard.mgmt.mode ≠ .startup ∧ testYard.Opens 0 testYard.arbiter.zones[1]
      ∧ ¬ testYard.Opens 0 testYard.arbiter.zones[3] ∧ testYard.run 1 = some ⟨3, 3⟩
      ∧ ¬ (testYard.setZone 2 { testYard.zone 2 with blocked := true }).Opens 1 { testYard.zone 2 with blocked := true }
      ∧ testStart.mgmt.mode = .startup
      ∧ (testYard.activeOrder 0 = none ∧ ∀ k : Fin 32, testYard.arbiter.zones[k].waiters = [])
      ∧ ((testYard.setOrder 0 (some (testActive .partly none))).activeOrder 0 = some (testActive .partly none)
        ∧ testYard.zonesAt 0 (testActive .partly none).permitted = (0, 0)) := by decide

theorem witness_LateAndMalformedTelegramsOnlyCount :
    let short := testTelegram .position []
    let late : Frame := { testTelegram .position (testPosition 31000) with seq := 5 }
    let load : Frame := { testTelegram .load [1, 1, 0, 0] with seq := 5 }
    let loaded := testYard.setHook 0 { testYard.hook 0 with loadSeq := some 5 }
    ((testCranePort testYard short).TelegramFrom .position 0 short ∧ (testYard.entry 0).configured = true
        ∧ readPosition short.payload = none)
      ∧ ((testCranePort testYard late).TelegramFrom .position 0 late ∧ (readPosition late.payload).isSome = true
        ∧ (testYard.record 0).tracking = .tracked ∧ ((testYard.record 0).last.map Telegram.seq) = some 5
        ∧ (late.seq - (5 : Byte)).toNat = 0)
      ∧ ((testCranePort testYard { load with payload := [] }).TelegramFrom .load 0 { load with payload := [] }
        ∧ readLoad [] = none)
      ∧ ((testCranePort loaded load).TelegramFrom .load 0 load ∧ readLoad load.payload = some [1]
        ∧ (loaded.hook 0).loadSeq = some 5) := by decide

theorem witness_LateAndMalformedTelegramsOnlyCount_report :
    let report : Frame := ⟨0, 16, Kind.bayReport.code, 1, le 9 3, 0⟩
    let taken := { testYard with bays := { testYard.bays with scan := some ⟨0, 0, true, false⟩ } }
    ((testCranePort testYard { report with payload := [] }).ReportFrom 0 { report with payload := [] }
        ∧ (testYard.bayEntry 0).configured = true ∧ readBayReport [] 0 = none)
      ∧ ((testCranePort taken report).ReportFrom 0 report ∧ (readBayReport report.payload 0).isSome = true
        ∧ (taken.bays.scan.any fun sc => sc.bay == 0 && !sc.taken) = false) := by decide

/-- The state with crane 0 and bay 0 not configured any more. -/
def testRemoved (s : State) : State :=
  ⟨(s.part.setEntry 0 CraneEntry.reset).setBayEntry 0 { testBay with configured := false }, s.pending⟩

theorem witness_LateAndMalformedTelegramsOnlyCount_removed :
    let f := fun k => testTelegram k []
    let report : Frame := ⟨0, 16, Kind.bayReport.code, 1, le 9 3, 0⟩
    (∀ k ∈ [Kind.position, .load], (testRemoved (testCranePort testYard (f k))).TelegramFrom k 0 (f k)
        ∧ (testRemoved (testCranePort testYard (f k))).Quiet)
      ∧ ((testRemoved (testAlone testYard)).part.entry 0).configured = false
      ∧ (testRemoved (testCranePort testYard report)).ReportFrom 0 report
      ∧ ((testRemoved (testAlone testYard)).part.bayEntry 0).configured = false := by decide

/-- R1, R6, R13: a POSITION at the head, of a crane that a write has unconfigured since, leaves its record as it is and stops no
neighbour. -/
theorem test_removed_crane_is_not_tracked :
    let f := testTelegram .position (testPosition 230000)
    let p := (testRemoved (testCranePort testYard f)).part
    p.positionFrame.record 0 = p.record 0 ∧ p.positionFrame.tracker.crossed[0] = false
      ∧ (p.positionFrame.latch 1).causes.any = false ∧ p.positionFrame.link.sup.tx = some f := by decide

theorem witness_LoadEntersTheWindow :
    let f := testTelegram .load [2, 10, 0, 0, 246, 255, 255]
    (testCranePort testYard f).TelegramFrom .load 0 f ∧ (testCranePort testYard f).Quiet
      ∧ (testYard.entry 0).configured = true ∧ readLoad f.payload = some [10, -10] ∧ (testYard.hook 0).loadSeq = none
      ∧ (testYard.hook 0).acc.Holds [] ∧ 0 + 2 < testYard.params.window ∧ (testYard.hook 0).acc.number < testYard.params.window
      ∧ (⟨3, 5, -4, 7⟩ : Accumulator).Holds [7, -4, 2] := by decide

/-- R82: a quiet window of an EMPTY hook with tong weight 2,000 and limit 400; R79: a tie of the mean goes away from zero. -/
def testWindow (h : Hook) : Part :=
  { testYard with params := { testYard.params with window := 4 } }.setHook 0
    { h with acc := ⟨4, -6, -5, 2⟩, active := some [⟨-1000, 0⟩, ⟨1000, 4000⟩] }

theorem witness_LoadEntersTheWindow_ends :
    let p := testWindow (testYard.hook 0)
    let weighed := testWindow (testWeighed.hook 0)
    ((p.hook 0).acc.Holds [-5, -3, 0, 2] ∧ ([-5, -3, 0, 2] : List Int).length = p.params.window)
      ∧ ((⟨2, -8, -5, -3⟩ : Accumulator).Holds [-5, -3] ∧ 2 < p.params.window ∧ 2 + 2 = p.params.window)
      ∧ (p.hook 0).state = .empty ∧ (weighed.hook 0).state = .weighed ∧ (weighed.hook 0).gripper = .closed
      ∧ (p.endWindow 0).hook 0 = { p.hook 0 with
        acc := ⟨0, 0, 0, 0⟩, tare := some 1996, suspect := false
        lastWindow := some ⟨0, -2, 7, true, some ⟨1996, 2000, 0, false, .good⟩⟩ } := by decide

/-- R82's example: a tong weight of 2,250 and a tare limit of 400; a gross of 2,300 leaves the mark clear, one of 2,720 sets it. -/
theorem test_tare_suspect_mark :
    let p := testYard.setEntry 0 { testCrane with tong := 2250 }
    let mark := fun g => let h := (p.trackTare 0 g).hook 0
      (h.tare, h.suspect)
    mark 2300 = (some 2300, false) ∧ mark 2720 = (some 2720, true) := by decide

/-- A hook with a state and a quiet run. -/
def testHook (state : HookState) (quiet : Nat) : Part :=
  testYard.setHook 0 { testYard.hook 0 with state := state, quiet := quiet, source := some ⟨.slot 0, 77⟩ }

theorem witness_WindowsLiftAndWeigh :
    ((testHook .gripped 0).hook 0).state = .gripped ∧ ((testHook .lifting 2).hook 0).state = .lifting
      ∧ 2 ≤ ((testHook .lifting 2).hook 0).quiet ∧ ((testHook .lifting 1).hook 0).quiet < 2
      ∧ (499 : Nat) < testYard.params.engage ∧ testYard.params.engage ≤ 500
      ∧ ((testHook .lifting 2).hook 0).source = some ⟨.slot 0, 77⟩
      ∧ ({ testYard with slots := testYard.slots.lift 0 0 } : Part).slots.slot 0
        = some ⟨testGeo 35000, .outgoing (testCoil 7 20000) 0 0⟩ := by decide

theorem witness_WindowsLiftAndWeigh_gripper :
    let weighed := fun net => testWeighed.setHook 0 { testWeighed.hook 0 with
      lastWindow := some ⟨0, 100, 0, true, some ⟨9000, 2000, net, false, .good⟩⟩ }
    let lifted := { testHook .lifting 2 with slots := testYard.slots.lift 0 0 }
    (testYard.hook 0).state = .empty ∧ ((weighed 299).hook 0).state = .weighed
      ∧ ((weighed 299).hook 0).lastNet = some 299 ∧ (299 : Nat) < testYard.params.release
      ∧ ((weighed 300).hook 0).lastNet = some 300 ∧ testYard.params.release ≤ 300
      ∧ ((lifted.hook 0).staged = none ∧ lifted.engine.deferred[0] = none ∧ (lifted.hook 0).source = some ⟨.slot 0, 77⟩
        ∧ lifted.activeOrder 0 = none ∧ lifted.slots.slot 0 = some ⟨testGeo 35000, .outgoing (testCoil 7 20000) 0 0⟩)
      ∧ (lifted.setOrder 0 (some (testActive .forwarded none))).activeOrder 0 = some (testActive .forwarded none)
      ∧ (testActive .forwarded none).tag = 77 := by decide

theorem witness_DoneEndsTheOrder :
    let f := testTelegram .done [77, 0, 0, 0, 3]
    let p := fun st => testYard.setOrder 0 (some (testActive st none))
    ((testCranePort (p .forwarded) f).TelegramFrom .done 0 f ∧ readDone f.payload = some ⟨77, true, 0, 3⟩
        ∧ (p .forwarded).activeOrder 0 = some (testActive .forwarded none)
        ∧ (testActive .forwarded none).lastSeq = some 3)
      ∧ ((p .partly).activeOrder 0 = some (testActive .partly none) ∧ (testActive .partly none).short = none)
      ∧ testYard.activeOrder 0 = none := by decide

theorem witness_BayReportIsTaken :
    let f : Frame := ⟨0, 16, Kind.bayReport.code, 1, le 9 3, 0⟩
    (testCranePort testYard f).ReportFrom 0 f ∧ (testCranePort testYard f).Quiet ∧ (testYard.bayEntry 0).configured = true
      ∧ readBayReport f.payload 0 = some ⟨true, true, none, 0, false, 0⟩
      ∧ testYard.bays.scan = some ⟨0, 0, false, false⟩ := by decide

theorem witness_BayReportIsTaken_departs_and_weighs :
    let bound := testWeighed.setHook 0 { testWeighed.hook 0 with dest := some ⟨.bayPos 0 0, 37000, 30000⟩ }
    let weighing := testYard.setBay 0 { testYard.bay 0 with plan := some { testPlan with truck := some 5, scalePending := true } }
    (readBayReport (le 9 0) 0 = some ⟨false, false, none, 0, false, 0⟩ ∧ bound.boundFor 0 0 = true
        ∧ (bound.entry 0).configured = true ∧ (bound.bay 0).state ≠ .empty ∧ (bound.bay 0).plan.isSome = true)
      ∧ (readBayReport ([15] ++ le 4 5 ++ le 4 10001) 0 = some ⟨true, true, some 5, 10001, true, 0⟩
        ∧ (weighing.bay 0).plan = some { testPlan with truck := some 5, scalePending := true })
      ∧ readBayReport ([7] ++ le 4 6 ++ le 4 0) 0 = some ⟨true, true, some 6, 0, false, 0⟩
      ∧ testYard.bays.scan = some ⟨0, 0, false, false⟩ := by decide

/-! ### Orders -/

theorem witness_MoveOrderIsForwarded :
    let f := testOrder .goto (le 2 77 ++ [0] ++ le 2 0 ++ [0] ++ le 3 40000 ++ le 2 11000)
    let g := testOrder .park (le 2 77 ++ [0] ++ le 2 0)
    let r : OrderRequest := ⟨.goto, 77, none, 0, some (.coord 40000 11000), none⟩
    ((testSup testYard f).OrderFor .goto 0 f ∧ readOrder .goto f.payload = some r
        ∧ (testSup testYard f).Granted 0 r ⟨40000, 11000, 12000⟩)
      ∧ ((testSup testYard g).OrderFor .park 0 g ∧ readOrder .park g.payload = some ⟨.park, 77, none, 0, none, none⟩
        ∧ (testSup testYard g).Granted 0 ⟨.park, 77, none, 0, none, none⟩ ⟨30000, 10000, 12000⟩) := by decide

/-- The yard, or one with a coil on hook 0, with crane 0 at a place and another zone 1. -/
def testAsks (p : Part) (x : Nat) (z : Zone) : Part := (p.setRecord 0 (testSeen x)).setZone 1 z

/-- A GOTO to 70,000: it asks for zone 1 first, from 30,000 it can step to 58,535, and from there it cannot (R58, R59). -/
theorem witness_MoveOrderIsForwarded_in_part :
    let f := testOrder .goto (le 2 77 ++ [0] ++ le 2 0 ++ [0] ++ le 3 70000 ++ le 2 11000)
    let r : OrderRequest := ⟨.goto, 77, none, 0, some (.coord 70000 11000), none⟩
    let taken := { testYard.zone 1 with grant := some 2 }
    let blocked := { testYard.zone 1 with blocked := true }
    let bare := { testYard.zone 1 with loaded := false }
    (∀ p ∈ [testAsks testYard 30000 taken, testAsks testYard 58535 blocked, testAsks testWeighed 30000 bare],
      (testSup p f).OrderFor .goto 0 f ∧ readOrder .goto f.payload = some r ∧ (testSup p f).Accepts 0 r ⟨70000, 11000, 12000⟩
        ∧ p.run 0 = some ⟨0, 0⟩ ∧ p.AsksFor 0 70000 ⟨0, 0⟩ 1 ∧ p.claim 0 = none ∧ (p.zone 1).defined = true
        ∧ p.facing 0 1 = none ∧ (p.hook 0).source = none)
      ∧ (testAsks testYard 30000 taken).StepsTo 0 70000 ⟨0, 0⟩ 58535
      ∧ ((testAsks testWeighed 30000 bare).hook 0).loaded = true := by decide

theorem witness_MoveOrderIsForwarded_held (x : Nat) (z : Zone) (hz : z = { testYard.zone 1 with grant := some 2 }) :
    ¬ (testAsks testYard 58535 z).StepsTo 0 70000 ⟨0, 0⟩ x := by
  subst hz
  intro h
  have hx : (x : Int) = 58535 := h.2.1.trans (by decide)
  have hc : (testAsks testYard 58535 { testYard.zone 1 with grant := some 2 }).craneX 0 = 58535 := by decide
  have := h.2.2
  omega

theorem witness_PickOrderIsForwarded :
    let f := testOrder .pick (le 2 77 ++ [0] ++ le 2 0 ++ [2] ++ le 2 0)
    let g := testOrder .pick (le 2 77 ++ [0] ++ le 2 0 ++ [1, 0, 0] ++ le 11 0)
    let r : OrderRequest := ⟨.pick, 77, none, 0, some (.slot 0), none⟩
    let q : OrderRequest := ⟨.pick, 77, none, 0, some (.entry 0), some ⟨none, 0, none, none, 0⟩⟩
    ((testSup testYard f).OrderFor .pick 0 f ∧ readOrder .pick f.payload = some r
        ∧ (testSup testYard f).Granted 0 r ⟨35000, 20000, 900⟩ ∧ (testYard.hook 0).dest = none
        ∧ testYard.slots.slot 0 = some ⟨testGeo 35000, .occupied (testCoil 7 20000) 0⟩)
      ∧ ((testSup testEntry g).OrderFor .pick 0 g ∧ readOrder .pick g.payload = some q
        ∧ (testSup testEntry g).Granted 0 q ⟨35000, 9000, 800⟩) := by decide

theorem witness_PlaceOrderIsForwarded :
    let f := fun loc => testOrder .place (le 2 77 ++ [0] ++ le 2 0 ++ loc)
    let r := fun loc => (⟨.place, 77, none, 0, some loc, none⟩ : OrderRequest)
    (testWeighed.hook 0).coil = some (testCoil 8 15000) ∧ (testWeighed.hook 0).dest = none
      ∧ ((testSup testWeighed (f [2, 2, 0])).OrderFor .place 0 (f [2, 2, 0])
        ∧ readOrder .place (f [2, 2, 0]).payload = some (r (.slot 2))
        ∧ (testSup testWeighed (f [2, 2, 0])).Granted 0 (r (.slot 2)) ⟨37000, 20000, 900⟩
        ∧ testWeighed.slots.slot 2 = some ⟨testGeo 37000, .reserved testHeld⟩)
      ∧ ((testSup testWeighed (f [2, 1, 0])).Granted 0 (r (.slot 1)) ⟨36000, 20000, 900⟩
        ∧ readOrder .place (f [2, 1, 0]).payload = some (r (.slot 1))
        ∧ testWeighed.slots.slot 1 = some ⟨testGeo 36000, .free⟩)
      ∧ ((testSup testWeighed (f [3, 0, 0])).Granted 0 (r (.bayPos 0 0)) ⟨37000, 30000, 1300⟩
        ∧ readOrder .place (f [3, 0, 0]).payload = some (r (.bayPos 0 0))) := by decide

theorem witness_OrdersAreRefusedInOrder :
    let f := testOrder .place (le 2 77 ++ [0] ++ le 2 0 ++ [1, 0])
    let drive := fun d => testYard.setRecord 0
      { testYard.record 0 with last := some ⟨5, 30000, 10000, 12000, 0, 0, .opened, d, 0, 0⟩ }
    (∀ form ∈ orderForms, (testSup testYard (testOrder form.2.1 [])).OrderFor form.2.1 0 (testOrder form.2.1 [])
        ∧ readOrder form.2.2 [] = none)
      ∧ (testSup testYard f).OrderFor .place 0 f ∧ (readOrder .place f.payload).isSome = true
      ∧ testStart.mgmt.mode ≠ .run ∧ (testYard.setRecord 0 CraneRecord.reset |>.record 0).tracking ≠ .tracked
      ∧ ((testYard.requestStop 0 .truckLeft none).latch 0).causes.any = true
      ∧ ((drive .manual).record 0).last.map Telegram.drive = some .manual
      ∧ ((drive .fault).record 0).last.map Telegram.drive = some .fault
      ∧ ((testWeighed.setOrder 0 (some { testActive .forwarded none with kind := .place })).underWay 0) = true
      ∧ testYard.underWay 0 = false ∧ testYard.resolve 0 .place (some (.entry 0)) = none := by decide

theorem witness_OrdersAreRefusedInOrder_once_resolved :
    let f := fun i => testOrder .pick (le 2 77 ++ [0] ++ le 2 0 ++ [2] ++ le 2 i)
    let r := fun i => (⟨.pick, 77, none, 0, some (.slot i), none⟩ : OrderRequest)
    let held := testYard.setZone 0 { testYard.zone 0 with hold := some .indefinite }
    readOrder .pick (f 0).payload = some (r 0) ∧ testYard.resolve 0 .pick (some (.slot 0)) = some ⟨35000, 20000, 900⟩
      ∧ (testWeighed.hook 0).state ≠ .empty ∧ (testYard.hook 0).state = .empty
      ∧ (readOrder .pick (f 1).payload = some (r 1) ∧ testYard.resolve 0 .pick (some (.slot 1)) = some ⟨36000, 20000, 900⟩
        ∧ testYard.ownerCheck 0 .pick (some (.slot 1)) = some .slotState)
      ∧ testYard.ownerCheck 0 .pick (some (.slot 0)) = none
      ∧ ((testWeighed.hook 0).loaded = true ∧ testWeighed.inCabArea 43000 32500 = true
        ∧ testWeighed.resolve 0 .goto (some (.coord 43000 32500)) = some ⟨43000, 32500, 12000⟩)
      ∧ (held.zone (held.zoneOf 35000)).held = true
      ∧ ((testSup (testFilled 16 0) (f 0)).OrderFor .pick 0 (f 0) ∧ 16 ≤ (testFilled 16 0).link.normal.length) := by decide

/-- R55, R118: behind a waiting request an order that names a slot is refused by checks 1 to 5 at once, or else waits for its resolution,
with the gate taking nothing and the events of its crane serving it first. -/
theorem test_order_waits_for_the_slot_map :
    let f := testOrder .pick (le 2 77 ++ [0] ++ le 2 0 ++ [2] ++ le 2 1)
    let p := fun mode => { testYard.setRequests [.expiry 2] with mgmt := { testYard.mgmt with mode := mode } }
    let run := (testSup (p .run) f).part.orderFrame .pick .pick
    let maintenance := (testSup (p .maintenance) f).part.orderFrame .pick .pick
    run.slots.requests = [.expiry 2, .order 0 f] ∧ run.gateTakes = false ∧ run.touchesSlots = true
      ∧ run.await.slots.requests = [] ∧ run.link.sup.tx.isNone = true ∧ run.await.link.sup.tx.isSome = true
      ∧ maintenance.slots.requests = [.expiry 2]
      ∧ maintenance.link.sup.tx.map Frame.payload
        = some (Verdict.payload ⟨0, 77, .refused, some .wrongMode, 0, 0⟩) := by decide

theorem witness_HaltEndsOrders :
    let f := testOrder .halt (le 2 9)
    let g : Frame := ⟨31, 0, Kind.halt.code, 1, le 2 9, 0⟩
    ((testSup testYard f).OrderFor .halt 0 f ∧ readHalt f.payload = some 9 ∧ testYard.activeOrder 0 = none)
      ∧ (testSup testYard g).part.supHead = some g ∧ (testSup testYard g).part.classifySup g = .broadcastHalt
      ∧ testYard.gate.verdicts = [] ∧ ∀ c, testYard.activeOrder c = none := by decide

/-! ### Expiries and the filter -/

/-- The yard at a time. -/
def testAt (now : Time) : Part := { testYard with mgmt := { testYard.mgmt with clock := now } }

theorem witness_StaleCraneIsStopped :
    (testAt 200).inReset = false ∧ (testAlone (testAt 200)).Quiet ∧ ((testAt 200).record 0).tracking = .tracked
      ∧ ((testAt 200).record 0).last = some ⟨5, 30000, 10000, 12000, 0, 0, .opened, .ready, 0, 0⟩
      ∧ passed 200 (0 + BitVec.ofNat 32 (testAt 200).params.staleLimit) = true ∧ ((testAt 200).entry 0).configured = true
      ∧ ((testAt 200).latch 0).causes.stale = false := by decide

/-- R4, R12, R118: a write of the stale limit that waits at the slot map comes before the stale expiry, which is then not due. -/
theorem test_stale_expiry_after_a_waiting_write :
    let write := testManage .tableWrite (le 1 9 ++ le 2 1 ++ [1] ++ le 4 1000)
    let p := ((testAt 200).setRequests [.management write]).setHook 0
      { (testAt 200).hook 0 with source := some ⟨.slot 0, 77⟩ }
    (p.staleDue 0 = true ∧ p.touchesSlots = true ∧ (p.expireStale 0).params.staleLimit = 1000)
      ∧ ((p.expireStale 0).record 0).tracking = .tracked ∧ ((p.expireStale 0).latch 0).causes.stale = false := by decide

theorem witness_ZoneHoldsAndBlocks :
    let held := testYard.setZone 1 { testYard.zone 1 with hold := some (.till 0) }
    let f := fun k => testManage k (le 4 2)
    (∀ k : Fin 32, (2 : ZoneMask).getLsbD k.val = true → testYard.arbiter.zones[k].defined = true)
      ∧ (held.arbiter.zones[1].hold = some (.till 0) ∧ passed held.mgmt.clock 0 = true)
      ∧ ((testSup testYard (testManage .hold (le 4 2 ++ le 2 1))).Request .hold (testManage .hold (le 4 2 ++ le 2 1))
        ∧ readHold (le 4 2 ++ le 2 1) = some (2, 1))
      ∧ ((testSup held (f .unhold)).Request .unhold (f .unhold) ∧ readMask (le 4 2) = some 2
        ∧ maskZones 2 = [1] ∧ held.arbiter.zones[1].hold.isSome = true ∧ held.arbiter.zones[1].waiters = [])
      ∧ ((testSup testYard (f .block)).Request .block (f .block) ∧ testYard.arbiter.zones[1].grant = none)
      ∧ (testSup testYard (f .unblock)).Request .unblock (f .unblock) := by decide

/-- R41, R46 and R45: the refusal of a mask with an undefined zone names the zone in answer to BLOCK alone. -/
theorem test_mask_refusals :
    let f := fun k => testManage k (le 4 16)
    let data := fun s : State => s.part.link.sup.tx.map Frame.payload
    let refused := fun k data => some (ReplyBody.payload ⟨Kind.code k, 1, .refused, some .badValue, data⟩)
    data ⟨serveUnhold (f .unhold) testYard, []⟩ = refused .unhold []
      ∧ data ⟨serveUnblock (f .unblock) testYard, []⟩ = refused .unblock []
      ∧ data ⟨serveBlock (f .block) testYard, []⟩ = refused .block [4, 0] := by decide

theorem witness_ReservationsExpire :
    let p := testAt 5000
    let waiting := p.setRequests [.search]
    let served := p.setRequests [.expiry 2]
    (p.inReset = false ∧ passed p.mgmt.clock testHeld.expiry = true ∧ (testAlone p).Quiet
        ∧ p.slots.slot 2 = some ⟨testGeo 37000, .reserved testHeld⟩)
      ∧ (p.slots.slot 3 = some ⟨testGeo 38000, .incoming testHeld 0 15000⟩ ∧ testHeld.lapsed = false)
      ∧ (waiting.slots.requests ≠ [] ∧ .expiry 2 ∉ waiting.slots.requests)
      ∧ served.slots.requests = .expiry 2 :: [] := by decide

/-- A hook that is LIFTING since 0, with a last net. -/
def testLifting (now : Time) : Part :=
  (testAt now).setHook 0 { (testAt now).hook 0 with
    state := .lifting, lift := some ⟨0, 20000⟩, lastWindow := some ⟨0, 100, 0, true, some ⟨9000, 2000, 7000, false, .good⟩⟩ }

theorem witness_WeighTimeoutWeighsUnsettled :
    (testLifting 20000).inReset = false ∧ (testAlone (testLifting 20000)).Quiet
      ∧ ((testLifting 20000).hook 0).state = .lifting ∧ ((testLifting 20000).hook 0).lift = some ⟨0, 20000⟩
      ∧ passed 20000 20000 = true ∧ ((testLifting 20000).hook 0).source = none
      ∧ ((testLifting 20000).hook 0).lastWindow = some ⟨0, 100, 0, true, some ⟨9000, 2000, 7000, false, .good⟩⟩ := by decide

theorem witness_BayTimersExpire :
    let p := testYard.setBay 0
      { testYard.bay 0 with rearmAt := some 0, flashAt := some 0, state := .paused, causes := ⟨true, false, false⟩ }
    (p.inReset = false ∧ (testAlone p).Quiet ∧ passed p.mgmt.clock 0 = true ∧ (p.bay 0).rearmAt = some 0
      ∧ p.lines.driver[0].accepted = .active
      ∧ ∀ k : Fin 32, (p.bayEntry 0).mask.getLsbD k.val = true → p.arbiter.zones[k].waiters = [])
      ∧ (p.bay 0).flashAt = some 0 := by decide

/-- The scan with its report taken or not, and a bay's misses. -/
def testScan (taken : Bool) (misses : Nat) : Part :=
  { testYard with bays := { testYard.bays with
      scan := some ⟨0, 0, taken, false⟩, records := testYard.bays.records.set 0 { testYard.bay 0 with misses := misses } } }

theorem witness_DwellEndPollsTheNextBay :
    ((testScan true 0).inReset = false ∧ (testAlone (testScan true 0)).Quiet
        ∧ (testScan true 0).bays.scan = some ⟨0, 0, true, false⟩ ∧ passed (testScan true 0).mgmt.clock 0 = true
        ∧ (testScan true 0).nextBay 0 = some 0)
      ∧ ((testScan false 1).bays.scan = some ⟨0, 0, false, false⟩ ∧ ((testScan false 1).bay 0).misses < 2)
      ∧ (2 ≤ ((testScan false 2).bay 0).misses ∧ ((testScan false 2).bay 0).pollStale = false) := by decide

theorem witness_FilterTakesSamples :
    (testAt 5).inReset = false ∧ passed (testAt 5).mgmt.clock (testAt 5).lines.nextSample = true
      ∧ (testAlone (testAt 5)).Quiet ∧ (∀ n ∈ lineList, (testAt 5).levelDue n = false ∧ (testAt 5).delayDue n = false)
      ∧ passed (testAt 4).mgmt.clock (testAt 4).lines.nextSample = false := by decide

/-- The yard with the output of stop line 0. -/
def testOutput (o : OutLine) : Part := { testYard with lines := testYard.lines.setOutput 0 o }

theorem witness_ReadbacksAreCompared :
    let due : OutLine := ⟨false, false, none, ⟨.inactive, true, 3⟩⟩
    let ended : OutLine := ⟨true, false, some 4, ⟨.inactive, false, 3⟩⟩
    ((testOutput due).inReset = false ∧ (testAlone (testOutput due)).Quiet ∧ (testOutput due).lines.output 0 = some due
        ∧ due.input.run = 3 ∧ due.input.accepted ≠ .active)
      ∧ ((testOutput ended).lines.output 0 = some ended ∧ ended.delay = some 4) ∧ due.delay ≠ some 4 := by decide

/-- The yard with the driver input of bay 0 and its record. -/
def testDriver (i : InputFilter) (r : BayRecord) : Part :=
  { testYard with lines := { testYard.lines with driver := testYard.lines.driver.set 0 i } }.setBay 0 r

theorem witness_DriverInputPausesTheBay :
    let r := testYard.bay 0
    let back := testDriver ⟨.inactive, true, 3⟩ { r with causes := ⟨true, false, false⟩ }
    let gone := testDriver ⟨.active, false, 3⟩ r
    (back.inReset = false ∧ (testAlone back).Quiet ∧ (back.bayEntry 0).configured = true
        ∧ back.lines.driver[0] = ⟨.inactive, true, 3⟩ ∧ (back.bay 0).causes.driver = true)
      ∧ ((testDriver ⟨.inactive, true, 3⟩ r).bay 0).causes.driver = false
      ∧ (gone.lines.driver[0] = ⟨.active, false, 3⟩ ∧ (gone.bay 0).state ≠ .empty ∧ (gone.bay 0).state ≠ .arrived)
      ∧ ((testDriver ⟨.active, false, 3⟩ { r with state := .arrived }).bay 0).state = .arrived := by decide

/-! ### Allocation and slots -/

/-- An ALLOCATE payload: tag 5, id 9, flags, weight, group 3, source x 35,000, crane. -/
def testAllocate (flags crane : Nat) : List Byte :=
  le 2 5 ++ le 1 flags ++ le 4 9 ++ le 2 12000 ++ le 2 0 ++ le 2 0 ++ [3] ++ le 3 35000 ++ le 1 crane ++ [0]

/-- A queued request. -/
def testRequest : Request := ⟨1, 5, 9, some 12000, none, none, 3, .given 35000, none, 0, false, 0⟩

/-- An ALLOCATE with these flags for crane 0, as it is read. -/
def testRaw (weight : Option Nat) (source : SourceX) (crane : Option Nat) : RawAllocate :=
  ⟨5, some 9, weight, none, none, 3, source, crane, 0, false⟩

theorem witness_AllocateRequestsArrive :
    let f := fun flags => testManage .allocate (testAllocate flags 0)
    let full := testYard.setQueue (List.replicate 8 testRequest)
    let parked := testYard.setDeferred 0 (some ⟨testRequest, .parked⟩)
    let answering := { testYard with engine := { testYard.engine with answers := [⟨0x63, 1, .busy, none, []⟩] } }
    let holding := { testYard with mgmt := { testYard.mgmt with held := some (f 3) } }
    (readAllocate (f 3).payload = some (testRaw (some 12000) (.given 35000) none)
        ∧ readAllocate (f 35).payload = some (testRaw (some 12000) (.given 35000) (some 0))
        ∧ readAllocate (f 51).payload = some (testRaw (some 12000) .fromCrane (some 0))
        ∧ readAllocate (f 33).payload = some (testRaw none (.given 35000) (some 0))
        ∧ readAllocate (f 49).payload = some (testRaw none .fromCrane (some 0))
        ∧ readAllocate (f 1).payload = some (testRaw none (.given 35000) none))
      ∧ (∀ n ∈ [1, 3, 33, 35, 49, 51], (testSup testYard (f n)).Request .allocate (f n))
      ∧ (testYard.engine.answers = [] ∧ testYard.engine.queue.length < 8 ∧ (testYard.entry 0).configured = true
        ∧ (testYard.record 0).last ≠ none ∧ testYard.engine.deferred[0] = none ∧ (testYard.hook 0).state ≠ .weighed)
      ∧ (testYard.setRecord 0 CraneRecord.reset |>.record 0).last = none
      ∧ 8 ≤ full.engine.queue.length ∧ parked.engine.deferred[0] ≠ none
      ∧ ((testWeighed.hook 0).coil = some (testCoil 8 15000) ∧ (testCoil 8 15000).id ≠ some 9 ∧ (testCoil 9 15000).id = some 9)
      ∧ ((testSup answering (f 3)).Request .allocate (f 3) ∧ answering.engine.answers ≠ [])
      ∧ (holding.mgmt.held = some (f 3) ∧ (f 3).kind = 0x63) := by decide

/-- BAD_VALUE in each of its ways (R121): no coil id, a crane that is not configured or has no index, a size of 0, a source x off the
runway, FROM_CRANE without a crane. -/
theorem witness_AllocateRequestsArrive_bad_value :
    let read := fun flags x crane => readAllocate
      (le 2 5 ++ le 1 flags ++ le 4 9 ++ le 2 12000 ++ le 2 0 ++ le 2 0 ++ [3] ++ le 3 x ++ le 1 crane ++ [0])
    (read 2 5 0).map RawAllocate.coil = some none ∧ (read 35 5 2).map RawAllocate.crane = some (some 2)
      ∧ (∀ c : Fin 4, c.val = 2 → (testYard.entry c).configured = false)
      ∧ (read 35 5 200).map RawAllocate.crane = some (some 200) ∧ (∀ c : Fin 4, c.val ≠ 200)
      ∧ (read 7 5 0).map RawAllocate.diameter = some (some 0) ∧ (read 11 5 0).map RawAllocate.width = some (some 0)
      ∧ (read 3 262144 0).map RawAllocate.source = some (.given 262144)
      ∧ (read 19 5 0).map (fun r => (r.source, r.crane)) = some (.fromCrane, none) := by decide

/-- A search of the queue's head. -/
def testSearch : Search := ⟨.queue, 0, none, 0, 0⟩

theorem witness_AllocationSearchesAreServed :
    let p := testYard.setQueue [testRequest]
    let d : Deferred := ⟨testRequest, .ready 12000 .good 30000 0⟩
    let q := testYard.setDeferred 1 (some d)
    let w : Wanted := ⟨⟨some 9, 12000, .good, none, none, 3⟩, 35000, false⟩
    let serving := { p with engine := { p.engine with search := some testSearch }, slots := { p.slots with requests := [.search] } }
    (p.inReset = false ∧ p.engine.search = none ∧ p.engine.answers = [] ∧ p.engine.queue = testRequest :: []
        ∧ ∀ c : Fin 4, (p.engine.deferred[c].bind fun d => d.time false).isSome = false)
      ∧ (q.engine.queue = [] ∧ q.engine.deferred[1] = some d ∧ (d.time false).isSome = true)
      ∧ (serving.slots.requests = .search :: [] ∧ serving.engine.search = some testSearch
        ∧ serving.slots.candidateBlocks 0 0 = [0]
        ∧ serving.slots.winner testSearch w [0] = some (1, ⟨testGeo 36000, .free⟩, 1))
      ∧ SlotMap.reset.winner testSearch w (SlotMap.reset.candidateBlocks 0 0) = none ∧ testSearch.overflow = none := by decide

/-- A search with another block preferred and slot 1 in the overflow block; a search of a ready deferred request; a FROM_CRANE request,
with its crane's record and without. -/
theorem witness_AllocationSearchesAreServed_completed :
    let further : Search := { testSearch with overflow := some 0 }
    let w : Wanted := ⟨⟨some 9, 12000, .good, none, none, 3⟩, 35000, false⟩
    let m := { testYard.slots with blocks := testYard.slots.blocks.set 1 ⟨true, 1000000, 0, 300⟩ }
    let q : Request := { testRequest with source := .fromCrane, crane := some 0 }
    let d : Deferred := ⟨q, .ready 13000 .tareSuspect 31000 4⟩
    (m.candidateBlocks 2 0 = [1] ∧ m.winner further w [1] = none ∧ further.overflow = some (0 : Fin 8).val
        ∧ m.blocks[0].defined = true ∧ (0 : Fin 8) ∉ [(1 : Fin 8)])
      ∧ m.winner further w [0] = some (1, ⟨testGeo 36000, .free⟩, 1)
      ∧ (m.setContents 1 .blocked).winner further w [0] = none
      ∧ (testYard.setDeferred 0 (some d)).engine.deferred[0] = some d
      ∧ ((testYard.setQueue [q]).engine.queue.head? = some q ∧ q.weight = some 12000 ∧ (testYard.record 0).last.isSome = true)
      ∧ CraneRecord.reset.last = none := by decide

/-- R127, R133: a routing write that waits at the slot map before a search is a write before the search starts. -/
theorem test_search_sees_the_write_before_it :
    let f := testManage .tableWrite [6, 0, 0, 1, 4]
    let p := (testYard.setQueue [testRequest]).setRequests [.management f]
    p.startSearch.engine.search = some testSearch ∧ p.startSearch.slots.requests = [.management f, .search]
      ∧ p.startSearch.serveNext.engine.search = some { testSearch with routing := 4 } := by decide

theorem witness_WinnerHasTheLowestCost : testYard.slots.Sorted := by decide

theorem witness_ReserveTakesAFreeSlot :
    let f := fun i => testManage .reserve (le 2 i ++ [1] ++ le 4 9 ++ le 2 12000 ++ le 2 0 ++ le 2 0 ++ [3])
    let q : CoilFields := ⟨some 9, 12000, none, none, 3⟩
    let load := testYard.slots.occupiedSum 0 + testYard.slots.reservedSum 0
    ((testSup testYard (f 1)).Request .reserve (f 1) ∧ (testSup testYard (f 1)).Quiet
        ∧ readReserve (f 1).payload = some (1, q) ∧ testYard.slots.slot 1 = some ⟨testGeo 36000, .free⟩
        ∧ testYard.slots.placementTest ⟨testGeo 36000, .free⟩ ⟨some 9, 12000, .good, none, none, 3⟩ load = none)
      ∧ testYard.slots.placementTest ⟨testGeo 36000, .free⟩ ⟨some 9, 12000, .good, some 2001, none, 3⟩ load
        = some .sizeLimit
      ∧ (readReserve (f 0).payload = some (0, q) ∧ (testSup testYard (f 0)).Request .reserve (f 0)) := by decide

theorem witness_SlotsAreFreedAndSet :
    let u := fun n => testManage .unreserve (le 2 2 ++ le 2 n)
    let set := fun payload => testManage .slotSet payload
    let coil : Coil := ⟨some 9, 12000, .good, none, none, 3⟩
    let occupied := le 2 1 ++ [1, 1] ++ le 4 9 ++ le 2 12000 ++ [0] ++ le 2 0 ++ le 2 0 ++ [3]
    ((testSup testYard (u 9)).Request .unreserve (u 9) ∧ readUnreserve (u 9).payload = some (2, 9)
        ∧ readUnreserve (u 8).payload = some (2, 8))
      ∧ ((testSup testYard (set [1, 0, 0])).Request .slotSet (set [1, 0, 0]) ∧ readSlotSet [1, 0, 0] = some (1, .free)
        ∧ readSlotSet [1, 0, 2] = some (1, .blocked) ∧ testYard.slots.buried 1 = false ∧ Contents.free.settable = true)
      ∧ (readSlotSet occupied = some (1, .occupied coil) ∧ testYard.slotSetCheck 1 ⟨testGeo 36000, .free⟩ coil = none)
      ∧ ({ testYard.slots with slots := testYard.slots.slots ++ [(4, ⟨{ testGeo 35500 with tier := .upper 0 1 }, .reserved testHeld⟩)] }
        : SlotMap).buried 1 = true := by decide

theorem witness_SetDownReachesTheSlot :
    let bound := testWeighed.setHook 0 { testWeighed.hook 0 with dest := some ⟨.slot 3, 29700, 10300⟩ }
    ((bound.hook 0).coil = some (testCoil 8 15000) ∧ (bound.hook 0).dest = some ⟨.slot 3, 29700, 10300⟩
        ∧ bound.slots.slot 3 = some ⟨testGeo 38000, .incoming testHeld 0 15000⟩
        ∧ bound.craneX 0 ≤ 29700 + (bound.entry 0).tolerance ∧ 10300 ≤ bound.craneY 0 + (bound.entry 0).tolerance)
      ∧ (testWeighed.hook 0).dest = none := by decide

/-- 15,000 kg at an offset of 3,001 on a wheelbase of 6,000: the rear axle takes 7,502.5, rounded up (R151). -/
theorem witness_SetDownReachesTheSlot_on_a_truck :
    let pl : Plan := { testPlan with placements := [⟨3001, none, .incoming 0⟩] }
    let p := (testWeighed.setBay 0 { testYard.bay 0 with plan := some pl }).setHook 0
      { testWeighed.hook 0 with dest := some ⟨.bayPos 0 0, 30300, 9700⟩ }
    ((p.hook 0).coil = some (testCoil 8 15000) ∧ (p.hook 0).dest = some ⟨.bayPos 0 0, 30300, 9700⟩ ∧ (p.bay 0).plan = some pl
        ∧ pl.placements[0]? = some ⟨3001, none, .incoming 0⟩ ∧ p.lines.driver[0].accepted = .active
        ∧ 30300 ≤ p.craneX 0 + (p.entry 0).tolerance ∧ p.craneY 0 ≤ 9700 + (p.entry 0).tolerance)
      ∧ ((p.setDown 0).bay 0).plan.map (fun pl => (pl.front, pl.rear)) = some (12497, 12503) := by decide

/-! ### Tables -/

/-- A TABLE_WRITE of a table from an index on. -/
def testWrite (table first : Nat) (es : List (List Byte)) : Frame :=
  testManage .tableWrite (le 1 table ++ le 2 first ++ le 1 es.length ++ es.flatten)

theorem witness_CraneTableIsWritten :
    let same := testWrite 1 0 [testCrane.bytes]
    let new := testWrite 1 2 [testCrane.bytes]
    ((testSup testStart same).Request .tableWrite same ∧ (testSup testStart same).Quiet ∧ testStart.mgmt.mode = .startup
        ∧ WritesTable same.payload 1 0 [testCrane.bytes] ∧ parseCraneEntry testCrane.bytes = some testCrane
        ∧ testCrane.inRange = true ∧ testCrane.configured = (testStart.entry 0).configured)
      ∧ ((testSup testStart new).Request .tableWrite new ∧ WritesTable new.payload 1 2 [testCrane.bytes]
        ∧ testCrane.configured ≠ (testStart.entry 2).configured) := by decide

theorem witness_ZoneAndEntryTablesAreWritten :
    let zs := fun k => ({ (testZone 0 none).entry with start := k } : ZoneEntry)
    let zones := (zs 30).bytes :: [(zs 31).bytes]
    let ps := fun k => (⟨true, k, 1, 2⟩ : EntryPoint)
    let points := [(ps 3).bytes]
    ((testSup testStart (testWrite 2 30 zones)).Request .tableWrite (testWrite 2 30 zones)
        ∧ testStart.mgmt.mode = .startup ∧ WritesTable (testWrite 2 30 zones).payload 2 30 zones
        ∧ ∀ j (h : j < zones.length), readZoneEntry (30 + j) zones[j] = some (zs (30 + j)))
      ∧ WritesTable (testWrite 3 3 points).payload 3 3 points
      ∧ ∀ j (h : j < points.length), readEntryPoint (3 + j) points[j] = some (ps (3 + j)) := by decide

theorem witness_BlockGroupAndCalibrationAreWritten :
    let bs := fun _ : Nat => (⟨true, 60000, 5, 300⟩ : Block)
    let blocks := [(bs 0).bytes]
    let points := [(⟨-100, 0⟩ : CalPoint).bytes, (⟨100, 500⟩ : CalPoint).bytes]
    let f := testWrite 4 0 blocks
    ((testSup testYard f).Request .tableWrite f ∧ (testSup testYard f).Quiet ∧ WritesTable f.payload 4 0 blocks
        ∧ (∀ j (h : j < blocks.length), (readBlock (0 + j) blocks[j]).map Prod.snd = some (bs (0 + j)))
        ∧ (bs 0).defined = testYard.slots.blocks[0].defined ∧ testYard.slots.committedSum 0 ≤ (bs 0).limit)
      ∧ (WritesTable (testWrite 6 7 [[3]]).payload 6 7 [[3]] ∧ 7 + 1 ≤ 8)
      ∧ (WritesTable (testWrite 7 0 points).payload 7 (0 : Fin 4).val points ∧ 2 ≤ points.length
        ∧ (points.map readCalPoint).Pairwise (fun a b => a.count < b.count ∧ a.kg ≤ b.kg)
        ∧ (testYard.hook 0).state = .empty ∧ (testWeighed.hook 0).state ≠ .empty)
      ∧ ((testSup (testYard.setRequests [.search]) (testWrite 6 7 [[3]])).Request .tableWrite (testWrite 6 7 [[3]])
        ∧ (testYard.setRequests [.search]).slots.requests ≠ []) := by decide

theorem witness_SlotGeometryIsWritten :
    let up : Geometry := { testGeo 36500 with tier := .upper 0 1 }
    let gs : List (Nat × Option Geometry) := [(1, some (testGeo 36100)), (1535, some up)]
    let es := [geometryBytes 1 (some (testGeo 36100)), geometryBytes 1535 (some up)]
    let f := testWrite 5 0 es
    let after := fun i : Nat => match gs.lookup i with
      | none => testStart.slots.slot i
      | some none => none
      | some (some g) => some (⟨g, ((testStart.slots.slot i).map Slot.contents).getD .free⟩ : Slot)
    (testSup testStart f).Request .tableWrite f ∧ (testSup testStart f).Quiet ∧ testStart.mgmt.mode = .startup
      ∧ testStart.slots.Sorted ∧ WritesTable f.payload 5 0 es ∧ es.map readGeometry = gs.map some
      ∧ (gs.map Prod.fst).Nodup ∧ (∀ e ∈ gs, (e.2.all fun g => testStart.slots.blocks[g.block].defined) = true)
      ∧ (∀ e ∈ gs, ((testStart.slots.slot e.1).all fun x => x.contents == .free || x.contents == .blocked) = true)
      ∧ ∀ i ∈ testStart.slots.slots.map Prod.fst ++ gs.map Prod.fst, ((after i).all fun x => x.restsIn after) = true := by
  decide

theorem witness_BayTableIsWritten :
    let off : BayEntry := { testBay with configured := false }
    let new : BayEntry := { testBay with station := 21 }
    let f := fun b e => testWrite 8 b [BayEntry.bytes e]
    ((testSup testStart (f 0 testBay)).Request .tableWrite (f 0 testBay) ∧ WritesTable (f 0 testBay).payload 8 0 [testBay.bytes]
        ∧ parseBayEntry testBay.bytes = some testBay ∧ testBay.inRange = true
        ∧ testBay.configured = (testStart.bayEntry 0).configured ∧ (testStart.bay 0).causes.driver = false
        ∧ ∀ d, d ≠ 0 → (testStart.bayEntry d).configured = true → (testStart.bayEntry d).station ≠ testBay.station)
      ∧ ((testSup testStart (f 5 new)).Request .tableWrite (f 5 new) ∧ parseBayEntry new.bytes = some new
        ∧ (testStart.bayEntry 5).configured = false ∧ new.inRange = true
        ∧ ∀ d, d ≠ 5 → (testStart.bayEntry d).configured = true → (testStart.bayEntry d).station ≠ new.station)
      ∧ ((testSup testStart (f 0 off)).Request .tableWrite (f 0 off) ∧ parseBayEntry off.bytes = some off) := by decide

/-- Bay 0 with DRIVER: zone 1 leaves its mask and zone 2 joins it. -/
theorem witness_BayTableIsWritten_moves_the_hold :
    let p := (testStart.setBay 0 { testStart.bay 0 with causes := ⟨true, false, false⟩, state := .paused }).setBayHold 0 2
    let e : BayEntry := { testBay with mask := 4 }
    let f := testWrite 8 0 [e.bytes]
    (testSup p f).Request .tableWrite f ∧ (testSup p f).Quiet ∧ p.mgmt.mode = .startup ∧ WritesTable f.payload 8 0 [e.bytes]
      ∧ parseBayEntry e.bytes = some e ∧ e.inRange = true ∧ e.configured = true ∧ (p.bayEntry 0).configured = true
      ∧ (∀ d, d ≠ 0 → (p.bayEntry d).configured = true → (p.bayEntry d).station ≠ e.station)
      ∧ (p.bay 0).causes.driver = true ∧ (p.zone 1).bayHold[0] = true
      ∧ (∀ k : Fin 32, (p.bayEntry 0).mask.getLsbD k.val = true → e.mask.getLsbD k.val = false →
        p.arbiter.zones[k].waiters = []) := by decide

theorem witness_ParametersAreWritten :
    let es := [le 4 600, le 4 599]
    let f := testWrite 9 5 es
    let value := fun i => if 5 ≤ i ∧ i < 5 + es.length then field (es.getD (i - 5) []) 0 4 else testYard.params.get i
    (testSup testYard f).Request .tableWrite f ∧ WritesTable f.payload 9 5 es
      ∧ (∀ j (h : j < es.length), paramInRange (5 + j) (field es[j] 0 4) = true)
      ∧ (testSup testYard f).Quiet ∧ 5 + es.length ≤ 11 ∧ value 6 < value 5 ∧ value 0 = testYard.params.length := by decide

theorem witness_TableWritesAreRefused :
    let f := testWrite 1 0 [testCrane.bytes]
    let unknown := testWrite 10 0 [[0]]
    let short := testWrite 2 0 [[0]]
    ((testSup testYard f).Request .tableWrite f ∧ (testSup testYard f).Quiet ∧ WritesTable f.payload 1 0 [testCrane.bytes]
        ∧ testYard.mgmt.mode ≠ .startup)
      ∧ ((testSup testYard unknown).Request .tableWrite unknown ∧ 4 ≤ unknown.payload.length
        ∧ 9 < field unknown.payload 0 1)
      ∧ (field short.payload 0 1 = 2 ∧ readTableWrite short.payload = .malformed)
      ∧ ∀ form ∈ exactForms, (testSup testYard (testManage form.2.1 [1, 2])).Request form.2.1 (testManage form.2.1 [1, 2])
        ∧ (testManage form.2.1 [1, 2]).payload.length ≠ form.2.2 := by decide

theorem witness_TableReadReturnsEntries :
    let f := fun table first => testManage .tableRead (le 1 table ++ le 2 first ++ [2])
    ((testSup testYard (f 2 31)).Request .tableRead (f 2 31) ∧ (testSup testYard (f 2 31)).Quiet
        ∧ readTableHead (f 2 31).payload = some ⟨2, 31, 2⟩ ∧ tableForm 2 = some (7, 8) ∧ 31 < tableSize 2)
      ∧ (readTableHead (f 7 3).payload = some ⟨7, 3, 2⟩ ∧ (3 : Fin 4).val = 3 ∧ tableForm 7 = some (5, 8))
      ∧ tableSize 2 ≤ 32 := by decide

theorem witness_QueriesAreAnswered :
    let f := fun kind subject => testManage .query (le 1 kind ++ le 2 subject ++ [0, 1])
    (∀ k ∈ [1, 2, 3, 4, 5, 6, 7, 8, 9], (testSup testYard (f k 0)).Request .query (f k 0)
        ∧ readQuery (f k 0).payload = some ⟨k, 0, 0, true⟩)
      ∧ (testSup testYard (f 1 0)).Quiet := by decide

/-! ### Bays, stops, modes and restart -/

/-- A PLAN_LOAD payload of bay 0 with one placement at an offset. -/
def testPlanLoad (frontMax : Nat) : List Byte :=
  [0, 4] ++ le 2 5000 ++ le 2 5000 ++ le 2 6000 ++ le 2 1300 ++ le 4 frontMax ++ le 4 60000 ++ le 4 90000 ++ [0]
    ++ le 2 3000

/-- Every plan of R140 fits a frame: six expected ids take 59 bytes without a truck id, and 60 with one. -/
theorem test_full_plans :
    let six := fun n => (List.range 6).map fun k => (⟨20000 - k, some (BitVec.ofNat 32 (n + k)), .planned⟩ : Placement)
    readPlan ([5, 26] ++ le 2 1 ++ le 2 2 ++ le 2 15000 ++ le 2 16383 ++ le 4 3 ++ le 4 4 ++ le 4 5 ++ [50]
        ++ ((List.range 6).map fun k => le 2 (32768 + 20000 - k) ++ le 4 (7 + k)).flatten)
      = some (5, ⟨none, 1, 2, 15000, 16383, 3, 4, 5, 50, true, six 7, 1, 2, 0, false⟩)
    ∧ readPlan (le 4 9 ++ le 2 1 ++ le 2 2 ++ le 2 (15000 + 16384 * 1) ++ le 2 (16383 + 16384 * 3) ++ le 4 3 ++ le 4 4 ++ le 4 5
        ++ ((List.range 6).map fun k => le 2 (20000 - k + 32768 * ((50 / 2 ^ k) % 2)) ++ le 4 (7 + k)).flatten)
      = some (5, ⟨some 9, 1, 2, 15000, 16383, 3, 4, 5, 50, true, six 7, 1, 2, 0, false⟩) := by decide

theorem witness_PlanIsLoaded :
    let f := testManage .planLoad (testPlanLoad 60000)
    let heavy := testManage .planLoad (testPlanLoad 4999)
    let busy := testYard.bindPlacement 0 0 0
    ((testSup testYard f).Request .planLoad f ∧ (testSup testYard f).Quiet ∧ readPlan f.payload = some (0, testPlan)
        ∧ (testYard.bayEntry 0).configured = true ∧ testPlan.inRange = true ∧ (testYard.bay 0).someIncoming = false
        ∧ testPlan.within testPlan.tareFront testPlan.tareRear = true ∧ testYard.lines.driver[0].accepted = .active)
      ∧ (busy.bay 0).someIncoming = true
      ∧ (readPlan heavy.payload = some (0, { testPlan with frontMax := 4999 })
        ∧ ({ testPlan with frontMax := 4999 } : Plan).within 5000 5000 = false) := by decide

theorem witness_PlanIsClearedAndBayAcknowledged :
    let f := testManage .planClear [0]
    let g := testManage .bayAck [0]
    let bare := testYard.setBay 0 { testYard.bay 0 with plan := none }
    let odd := testYard.setBay 0 { testYard.bay 0 with causes := ⟨false, true, false⟩, state := .paused }
    readOne [0] = some (0 : Fin 6).val ∧ (testYard.bayEntry 0).configured = true
      ∧ ((testSup bare f).Request .planClear f ∧ (testSup bare f).Quiet ∧ (bare.bay 0).plan = none)
      ∧ ((testSup testYard f).Request .planClear f ∧ (testYard.bay 0).plan ≠ none ∧ (testYard.bay 0).someIncoming = false)
      ∧ ((testYard.bindPlacement 0 0 0).bay 0).someIncoming = true
      ∧ ((testSup testYard g).Request .bayAck g ∧ (testYard.bay 0).causes.discrepancy = false)
      ∧ ((testSup odd g).Request .bayAck g ∧ (odd.bay 0).causes.discrepancy = true
        ∧ odd.lines.driver[0].accepted = .active) := by decide

theorem witness_BayStateFollowsItsFacts :
    (testYard.bay 0).last = some testReport ∧ testReport.present = true ∧ (testYard.bay 0).plan = some testPlan
      ∧ (testYard.bay 0).causes.any = false ∧ testReport.inPosition = true ∧ testPlan.truck = none
      ∧ (testYard.bay 0).last.any Report.present = true
      ∧ ({ testYard.bay 0 with plan := none } : BayRecord).plan = none := by decide

theorem witness_StopReleaseRemovesSettledCauses :
    let f := testManage .stopRelease [0]
    let p := ((testYard.requestStop 0 .intrusion none).requestStop 0 .truckLeft none).requestStop 0 .startup none
    (testSup p f).Request .stopRelease f ∧ (testSup p f).Quiet ∧ readOne f.payload = some (0 : Fin 4).val
      ∧ (p.entry 0).configured = true ∧ (p.latch 0).causes.intrusion = true ∧ (p.latch 0).causes.truckLeft = true
      ∧ (p.latch 0).causes.startup = true := by decide

/-- R33, R68: INTRUSION goes when the fresh envelope lies within the grant, and stays when the crane stands beyond a neighbour's zone. -/
theorem test_intrusion_is_released_within_the_grant :
    let left := fun x => (((testYard.setRecord 0 (testSeen x)).requestStop 0 .intrusion none).releaseStop 0).latch 0
    (left 30000).causes.any = false ∧ (left 240000).causes.intrusion = true := by decide

theorem witness_ModesChange :
    let run := testManage .mode [1]
    let maintain := testManage .mode [2]
    let p := testStart.configured.foldl (fun p c => p.requestEnvelope c) (testSup testStart run).part.dropSup
    ((testSup testYard run).Request .mode run ∧ (testSup testYard run).Quiet ∧ readOne run.payload = some 1
        ∧ testYard.mgmt.mode = .run)
      ∧ ((testSup testYard maintain).Request .mode maintain ∧ readOne maintain.payload = some 2)
      ∧ (testStart.mgmt.mode = .startup ∧ (testSup testStart maintain).Request .mode maintain)
      ∧ ({ testYard with mgmt := { testYard.mgmt with mode := .maintenance } } : Part).mgmt.mode = .maintenance
      ∧ (testStart.setRecord 1 CraneRecord.reset).runChecks = some (.craneUntracked, 1)
      ∧ ((testSup testStart run).Request .mode run ∧ testStart.runChecks = none ∧ p.coverChecks = none) := by decide

/-- Covers that share zone 0, and a blocked zone in a cover (R188, checks 4 and 5). -/
theorem witness_ModesChange_refused :
    let fresh := fun p : Part => p.configured.foldl (fun p c => p.requestEnvelope c) (testSup p (testManage .mode [1])).part.dropSup
    let near := testStart.setRecord 1 (testSeen 45000)
    let blocked := testStart.setZone 0 { testStart.zone 0 with blocked := true }
    (near.runChecks = none ∧ (fresh near).coverChecks = some (.overlap, 0))
      ∧ (blocked.runChecks = none ∧ (fresh blocked).coverChecks = some (.zoneBlocked, 0))
      ∧ (readOne [0] = some 0 ∧ readOne [3] = some 3 ∧ readOne [] = none)
      ∧ (testSup testYard (testManage .mode [])).Request .mode (testManage .mode []) := by decide

theorem witness_RestartReturnsToStartup :
    let f := testManage .restart []
    let p := testYard.setQueue (List.replicate 8 testRequest)
    (testSup p f).Request .restart f ∧ (testSup p f).Quiet ∧ f.payload = [] ∧ p.engine.queue.length ≤ 8
      ∧ (testSup p f).part.StopLinesFollow ∧ (p.entry 0).configured = true := by decide

/-! ### Computations -/

/-- R143: bay 3 with axle mark 116,200, facing EAST, lane band 27,500 to 32,500, bed height 1,300, offset 4,100. -/
theorem witness_BayPositionResolves :
    let pl : Plan := { testPlan with placements := [⟨4100, none, .planned⟩] }
    let p := (testYard.setBayEntry 3 { testBay with axle := 116200 }).setBay 3 { BayRecord.reset with plan := some pl }
    (p.bayEntry 3).configured = true ∧ (p.bayEntry 3).axle = 116200 ∧ (p.bayEntry 3).front = .east
      ∧ (p.bayEntry 3).yLo = 27500 ∧ (p.bayEntry 3).yHi = 32500 ∧ (p.bay 3).plan = some pl ∧ pl.bed = 1300
      ∧ pl.placements[0]? = some ⟨4100, none, .planned⟩ ∧ p.bayPoint 3 0 = some ⟨112100, 30000, 1300⟩ := by decide

theorem witness_ConversionFollowsTheTable :
    ([⟨-100, 0⟩, ⟨0, 500⟩, ⟨7, 500⟩] : List CalPoint).Pairwise (fun p q => p.count < q.count ∧ p.kg ≤ q.kg)
      ∧ convert (-50) [⟨-100, 0⟩, ⟨0, 500⟩, ⟨7, 500⟩] = (250, false) := by decide

/-- A claim of crane 1 on zone 1. -/
def testClaimed : Part :=
  (testYard.setZone 1 { testYard.zone 1 with waiters := [⟨0, .normal, .order⟩] }).setClaim 0 (some ⟨1, .normal, .order⟩)

theorem witness_FreeZoneGoesToTheFirstClaim :
    let z := testClaimed.arbiter.zones[1]
    z.grant = none ∧ z.hold = none ∧ z.bayHold.any = false ∧ z.blocked = false
      ∧ bestWaiter z.waiters = some ⟨0, .normal, .order⟩ ∧ testClaimed.claim 0 = some ⟨(1 : Fin 32), .normal, .order⟩
      ∧ z.loaded = true ∧ testYard.arbiter.zones[1].waiters = [] := by decide

/-- The yard with an order of crane 0 and a number of frames in NORMAL. -/
def testTold (state : OrderState) (x filled : Nat) : Part :=
  (testFilled filled 0).setOrder 0 (some { testActive state none with target := ⟨x, 10000, 12000⟩ })

theorem witness_FreeZoneGoesToTheFirstClaim_told :
    ((testTold .waiting 40000 15).activeOrder 0 = some { testActive .waiting none with target := ⟨40000, 10000, 12000⟩ }
        ∧ (testTold .waiting 40000 15).zonesAt 0 40000 = (0, 0) ∧ (testTold .waiting 40000 15).run 0 = some ⟨0, 0⟩
        ∧ (testTold .waiting 40000 15).link.normal.length < 16 ∧ 16 ≤ (testTold .waiting 40000 16).link.normal.length)
      ∧ (testTold .partly 40000 15).activeOrder 0 = some { testActive .partly none with target := ⟨40000, 10000, 12000⟩ }
      ∧ (testTold .forwarded 40000 15).activeOrder 0
        = some { testActive .forwarded none with target := ⟨40000, 10000, 12000⟩ } := by decide

theorem witness_FreeZoneGoesToTheFirstClaim_refused (x : Nat) (state : OrderState) (h : state = .partly ∨ state = .waiting) :
    ¬ (testTold state 30000 0).StepsTo 0 30000 ⟨0, 0⟩ x := by
  intro hs
  have hc : (testTold state 30000 0).craneX 0 = 30000 := by rcases h with rfl | rfl <;> decide
  have := hs.2.2
  omega

theorem witness_ClaimRequestsAreAnswered :
    let blocked := testYard.setZone 1 { testYard.zone 1 with blocked := true }
    let held := testYard.setZone 1 { testYard.zone 1 with hold := some .indefinite }
    let bare := testWeighed.setZone 1 { testWeighed.zone 1 with loaded := false }
    testYard.mgmt.mode = .run ∧ testYard.claim 0 = none ∧ testYard.beyond 0 .east = some (1 : Fin 32).val
      ∧ blocked.arbiter.zones[1].blocked = true
      ∧ (bare.arbiter.zones[1].loaded = false ∧ (bare.hook 0).loaded = true)
      ∧ (testYard.arbiter.zones[1].blocked = false ∧ testYard.arbiter.zones[1].loaded = true
        ∧ testYard.arbiter.zones[1].grant = none ∧ testYard.run 0 = some ⟨0, 0⟩)
      ∧ (held.arbiter.zones[1].hold ≠ none ∧ held.facing 0 1 = none) := by decide

/-- Cranes 0 and 1 on neighbouring runs of zones 16,384 wide, 0 to 15. -/
def testNeighbours (a b c d : Nat) : Part :=
  let zone := fun k : Fin 32 => if k.val < 16 then { Zone.reset with
    defined := true, start := 16384 * k.val, loaded := true
    grant := if a ≤ k.val ∧ k.val ≤ b then some 0 else if c ≤ k.val ∧ k.val ≤ d then some 1 else none } else Zone.reset
  let p := { testYard with arbiter := { testYard.arbiter with
    zones := Vector.ofFn zone, runs := #v[some ⟨a, b⟩, some ⟨c, d⟩, none, none] } }
  (p.setRecord 0 (testSeen (16384 * b))).setRecord 1 (testSeen (16384 * d))

/-- Crane 1 waits for the last zone of crane 0, whose request for the first zone of crane 1 faces it. -/
theorem witness_ClaimRequestsAreAnswered_facing :
    let p := (testNeighbours 3 5 6 9).setClaim 1 (some ⟨5, .normal, .order⟩)
    p.claim 0 = none ∧ p.beyond 0 .east = some (6 : Fin 32).val ∧ p.arbiter.zones[6].blocked = false
      ∧ p.arbiter.zones[6].loaded = true ∧ p.facing 0 6 = some 1 ∧ p.claim 1 = some ⟨5, .normal, .order⟩
      ∧ ClaimClass.normal.rank ≤ ClaimClass.normal.rank ∧ ¬ ClaimClass.priority.rank ≤ ClaimClass.normal.rank := by decide

/-- Crane 0 gives way to the west and crane 1 to the east of a zone of its own: within its grant, with one zone more, with a further
zone that is not open, and, for a zone away from its own, not at all (R38, R39). -/
theorem witness_ClaimRequestsAreAnswered_gives_way :
    let p := testNeighbours 3 5 6 6
    let narrow := testNeighbours 3 3 6 9
    ((p.entry 0).giveWay = true ∧ (p.latch 0).causes.any = false ∧ p.link.normal.length < 16 ∧ p.run 0 = some ⟨3, 5⟩
        ∧ ((p.record 0).last.any fun t => t.drive == .ready) = true ∧ p.params.length = 262144)
      ∧ ((p.zone 5).start = 81920 ∧ p.zonesAt 0 (81920 - 6001) = (4, 5))
      ∧ ((narrow.zone 3).start = 49152 ∧ narrow.zonesAt 0 (49152 - 6001) = (2, 3) ∧ narrow.Opens 0 narrow.arbiter.zones[2])
      ∧ (p.run 1 = some ⟨6, 6⟩ ∧ p.zoneEnd 6 = 114688 ∧ p.zonesAt 1 (114688 + 6000) = (6, 7) ∧ p.Opens 1 p.arbiter.zones[7])
      ∧ ¬ (p.setZone 7 { p.zone 7 with blocked := true }).Opens 1 { p.zone 7 with blocked := true }
      ∧ ((p.zone 6).start = 98304 ∧ p.zonesAt 0 (98304 - 6001) = (5, 6))
      ∧ ((p.zone 0).start : Int) - 6001 < 0 ∧ (testFilled 16 0).link.normal.length = 16 := by decide

end Sys2Proof.Machine
end

section
/-! Stages 1 and 2 of the stopping envelope: the extrapolated position (R16) and the stopping distance (R17). -/

namespace Sys2Proof.Machine

/-! ## Ceiling and clamping -/

/-- Division with ceiling is the least natural that multiplied back reaches the dividend. -/
theorem ceilDiv_le_iff {b : Nat} (hb : 0 < b) (a n : Nat) : ceilDiv a b ≤ n ↔ a ≤ b * n := by
  rw [ceilDiv, ← Nat.add_sub_assoc hb, ← Nat.ceilDiv_eq_add_pred_div, ceilDiv_le_iff_le_mul hb]

theorem le_mul_ceilDiv {b : Nat} (hb : 0 < b) (a : Nat) : a ≤ b * ceilDiv a b :=
  (ceilDiv_le_iff hb a _).mp le_rfl

theorem ceilDiv_zero {b : Nat} (hb : 0 < b) : ceilDiv 0 b = 0 :=
  Nat.le_zero.mp ((ceilDiv_le_iff hb 0 0).mpr (Nat.zero_le _))

/-- The magnitude of the offset within the ranges of a telegram's velocity (R8) and of the stale limit (R16). -/
theorem ceilDiv_offset_le {v age : Nat} (hv : v ≤ 4095) (hage : age ≤ 1000) : ceilDiv (v * age) 1000 ≤ 4095 := by
  rw [ceilDiv_le_iff (by decide), mul_comm 1000]
  exact Nat.mul_le_mul hv hage

theorem clampTo_eq_ite {length : Nat} (h : 1 ≤ length) (e : Int) :
    clampTo (length - 1) e = if e < 0 then 0 else if (length : Int) - 1 < e then length - 1 else e.toNat := by
  unfold clampTo
  split
  case isTrue hneg => omega
  case isFalse hpos =>
    split
    case isTrue habove => omega
    case isFalse hin => omega

/-! ## Stage 1: the extrapolated position (R16) -/

/-- The position moves by the ceiling of the distance covered, in the direction of the velocity. -/
theorem extrapolate_eq_add_sign (x : Nat) (v : Int) (age : Nat) :
    extrapolate x v age = (x : Int) + v.sign * ceilDiv (v.natAbs * age) 1000 := by
  unfold extrapolate
  rcases lt_trichotomy v 0 with hneg | rfl | hpos
  · rw [if_pos hneg, Int.sign_eq_neg_one_of_neg hneg]
    omega
  · simp [ceilDiv_zero]
  · rw [if_neg (by omega), Int.sign_eq_one_of_pos hpos, one_mul]

theorem extrapolate_of_still (x : Nat) {v : Int} {age : Nat} (h : v = 0 ∨ age = 0) : extrapolate x v age = x := by
  rw [extrapolate_eq_add_sign]
  rcases h with rfl | rfl <;> simp [ceilDiv_zero]

theorem extrapolate_fastest (x : Nat) : extrapolate x 4095 1000 = (x : Int) + 4095 := rfl

theorem extrapolate_westward_part_millimetre (x : Nat) : extrapolate x (-1001) 1 = (x : Int) - 2 := rfl

/-- The envelope's ends stand around the extrapolated position brought onto the runway. -/
theorem Part.envelopeAt_ends (p : Part) (c : Fin 4) (t : Telegram) (age : Nat) :
    ((p.envelopeAt c t age).lo, (p.envelopeAt c t age).hi)
      = (p.entry c).interval p.params.length (clampTo (p.params.length - 1) (extrapolate t.x t.vx age)) t.vx := rfl

theorem Part.handOnPosition_eq (p : Part) (c : Fin 4) (g : Gripper) :
    p.handOnPosition c g = (((p.checkOrdering c).computeEnvelope c 0).takeGripper c g).checkCab c := rfl

/-! ## Stage 2: the stopping distance (R17) -/

theorem stoppingDistance_eq (v : Int) (reaction decel : Nat) :
    stoppingDistance v reaction decel = ceilDiv (v.natAbs * reaction) 1000 + ceilDiv (v.natAbs ^ 2) (2 * decel) := by
  rw [stoppingDistance, sq]

theorem stoppingDistance_zero (reaction : Nat) {decel : Nat} (h : 0 < decel) : stoppingDistance 0 reaction decel = 0 := by
  have hbrake : ceilDiv (0 ^ 2) (2 * decel) = 0 := ceilDiv_zero (by omega)
  rw [stoppingDistance_eq, Int.natAbs_zero, zero_mul, ceilDiv_zero (by decide), hbrake]

theorem stoppingDistance_extremes :
    stoppingDistance 4095 2000 100 = 92036 ∧ ceilDiv (4095 * 2000) 1000 = 8190
      ∧ ceilDiv (4095 * 4095) (2 * 100) = 83846 := by decide

/-- The stopping distance on the side of travel is that of the reported velocity, whatever the configured vmax. -/
theorem CraneEntry.interval_with_vmax (e : CraneEntry) (length x vmax : Nat) (v : Int) :
    let d : Int := stoppingDistance v e.reaction e.decel
    ({ e with vmax := vmax } : CraneEntry).interval length x v
      = (clampTo (length - 1) ((x : Int) - e.westExt - (if v < 0 then d else 0) - e.margin),
        clampTo (length - 1) ((x : Int) + e.eastExt + (if 0 < v then d else 0) + e.margin)) := rfl

/-- Settles O56: both stages are ceilings in the sense of `ceilDiv_le_iff`, and the envelope uses them as R16 and R17 say. -/
theorem extrapolationAndStoppingDistance : Obligations.ExtrapolationAndStoppingDistance := by
  refine ⟨fun x v age => ?offset, fun x v age => extrapolate_of_still x,
    fun x => ⟨extrapolate_fastest x, extrapolate_westward_part_millimetre x⟩, fun p c t age hlength => ?clamped,
    Part.handOnPosition_eq, fun v reaction decel hdecel => ?distance, fun reaction decel => stoppingDistance_zero reaction,
    stoppingDistance_extremes, CraneEntry.interval_with_vmax⟩
  case offset =>
    have hsec : 0 < 1000 := by decide
    exact ⟨ceilDiv (v.natAbs * age) 1000, extrapolate_eq_add_sign x v age, le_mul_ceilDiv hsec _,
      fun n => (ceilDiv_le_iff hsec _ n).mpr, ceilDiv_offset_le⟩
  case clamped =>
    intro e xNow
    have hx : clampTo (p.params.length - 1) e = xNow := clampTo_eq_ite hlength e
    rw [← hx]
    exact p.envelopeAt_ends c t age
  case distance =>
    have hsec : 0 < 1000 := by decide
    have hrate : 0 < 2 * decel := by omega
    exact ⟨ceilDiv (v.natAbs * reaction) 1000, ceilDiv (v.natAbs ^ 2) (2 * decel), stoppingDistance_eq v reaction decel,
      le_mul_ceilDiv hsec _, fun n => (ceilDiv_le_iff hsec _ n).mpr,
      le_mul_ceilDiv hrate _, fun n => (ceilDiv_le_iff hrate _ n).mpr⟩

end Sys2Proof.Machine
end

section
/-! The coordinates of a bay position (R143). -/

namespace Sys2Proof.Machine

/-! ## The point of a placement on a bay -/

/-- The signed x of a placement: its offset lies behind the axle mark, against the direction the truck faces (R143). -/
def BayEntry.placementX (e : BayEntry) (q : Placement) : Int :=
  match e.front with
  | .east => (e.axle : Int) - q.offset
  | .west => (e.axle : Int) + q.offset

/-- The point of a placement of a plan on a bay; none when its x lies out of range (R143). -/
def BayEntry.placementPoint (e : BayEntry) (pl : Plan) (q : Placement) : Option Point :=
  if 0 ≤ e.placementX q ∧ e.placementX q ≤ 262143 then
    some ⟨(e.placementX q).toNat, (e.yLo + e.yHi) / 2, pl.bed⟩
  else none

/-- The point's x, a natural, is the signed x itself: an x below 0 belongs to no point (R143). -/
theorem BayEntry.placementPoint_eq_some_iff (e : BayEntry) (pl : Plan) (q : Placement) (t : Point) :
    e.placementPoint pl q = some t ↔
      (t.x : Int) = e.placementX q ∧ t.x ≤ 262143 ∧ t.y = (e.yLo + e.yHi) / 2 ∧ t.z = pl.bed := by
  unfold BayEntry.placementPoint
  constructor
  · intro h
    obtain ⟨⟨hlo, hhi⟩, hpoint⟩ := Option.ite_none_right_eq_some.mp h
    obtain rfl := Option.some.inj hpoint
    exact ⟨Int.toNat_of_nonneg hlo, Int.toNat_le.mpr hhi, rfl, rfl⟩
  · rintro ⟨hx, hle, hy, hz⟩
    rw [if_pos (by omega), ← hx, ← hy, ← hz, Int.toNat_natCast]

/-! ## When BAYPOS resolves -/

/-- With the bay, plan and placement at hand, only the range of x decides whether BAYPOS resolves. -/
theorem Part.bayPoint_of_placement {p : Part} {b : Fin 6} {k : Nat} {pl : Plan} {q : Placement}
    (hbay : (p.bayEntry b).configured = true) (hplan : (p.bay b).plan = some pl) (hplace : pl.placements[k]? = some q) :
    p.bayPoint b k = (p.bayEntry b).placementPoint pl q := by
  simp only [Part.bayPoint, hbay, hplan, Plan.placement, hplace]
  rfl

/-- What resolves names a configured bay with a plan that has the placement. -/
theorem Part.placement_of_bayPoint {p : Part} {b : Fin 6} {k : Nat} {t : Point} (h : p.bayPoint b k = some t) :
    (p.bayEntry b).configured = true ∧ ∃ (pl : Plan) (q : Placement),
      (p.bay b).plan = some pl ∧ pl.placements[k]? = some q := by
  dsimp only [Part.bayPoint] at h
  split at h
  next pl hbay hplan =>
    split at h
    next => cases h
    next q hplace => exact ⟨hbay, pl, q, hplan, hplace⟩
  next => cases h

theorem Part.bayPoint_eq_some_iff (p : Part) (b : Fin 6) (k : Nat) (t : Point) :
    p.bayPoint b k = some t ↔
      (p.bayEntry b).configured = true ∧ ∃ (pl : Plan) (q : Placement),
        (p.bay b).plan = some pl ∧ pl.placements[k]? = some q
          ∧ (t.x : Int) = (p.bayEntry b).placementX q ∧ t.x ≤ 262143
          ∧ t.y = ((p.bayEntry b).yLo + (p.bayEntry b).yHi) / 2 ∧ t.z = pl.bed := by
  constructor
  · intro h
    obtain ⟨hbay, pl, q, hplan, hplace⟩ := placement_of_bayPoint h
    rw [bayPoint_of_placement hbay hplan hplace] at h
    exact ⟨hbay, pl, q, hplan, hplace, (BayEntry.placementPoint_eq_some_iff _ pl q t).mp h⟩
  · rintro ⟨hbay, pl, q, hplan, hplace, hat⟩
    rw [bayPoint_of_placement hbay hplan hplace]
    exact (BayEntry.placementPoint_eq_some_iff _ pl q t).mpr hat

/-! ## BAYPOS in an order (R53) -/

theorem bayOf_val (b : Fin 6) : bayOf b.val = some b := dif_pos b.isLt

/-- A GOTO and a PLACE take BAYPOS; what it resolves to still has to come within the crane's reach. -/
theorem Part.resolve_bayPos (p : Part) (c : Fin 4) (b : Fin 6) (k : Nat) {kind : OrderKind}
    (hkind : kind = .goto ∨ kind = .place) :
    p.resolve c kind (some (.bayPos b.val k)) = (p.bayPoint b k).bind fun t => p.intoReach c kind t := by
  have hlocate : p.locate c kind (some (.bayPos b.val k)) = p.bayPoint b k := by
    rcases hkind with rfl | rfl <;> simp only [Part.locate, bayOf_val, Option.bind_some]
  rw [Part.resolve, hlocate]

/-- Settles O57: `Part.bayPoint_eq_some_iff` is R143's rule, and its example a use of that rule. -/
theorem bayPositionResolves : Obligations.BayPositionResolves := by
  refine ⟨Part.bayPoint_eq_some_iff, fun p c b k kind => p.resolve_bayPos c b k, ?bayThree⟩
  case bayThree =>
    intro p pl q hbay haxle hfront hyLo hyHi hplan hbed hplace hoffset
    have hx : (p.bayEntry 3).placementX q = 112100 := by
      simp [BayEntry.placementX, hfront, haxle, hoffset]
    have hy : ((p.bayEntry 3).yLo + (p.bayEntry 3).yHi) / 2 = 30000 := by rw [hyLo, hyHi]
    exact (p.bayPoint_eq_some_iff 3 0 _).mpr ⟨hbay, pl, q, hplan, hplace, hx.symm, by decide, hy.symm, hbed.symm⟩

end Sys2Proof.Machine
end

section
/-! The laws that every step keeps (R67, R163, R170 to R173, R183, log 8). -/

namespace Sys2Proof.Machine

/-! ## From what an operation keeps to the laws -/

/-- The four laws are kept, each by itself. -/
abbrev Part.KeepsLaws (p q : Part) : Prop :=
  (p.UrgentUnique → q.UrgentUnique) ∧ (p.StopLinesFollow → q.StopLinesFollow)
    ∧ (p.SlotsSorted → q.SlotsSorted) ∧ (p.WithinCapacity → q.WithinCapacity)

theorem Part.Safe.keepsLaws {p q : Part} (h : p.Safe q) : p.KeepsLaws q := by
  refine ⟨fun hu => ?_, fun hl c => h.line c (hl c), h.sorted, ?_⟩
  · exact (urgentUnique_iff _).mpr (h.link.urgent ((urgentUnique_iff _).mp hu))
  · rintro ⟨hsup, hcrane, hnormal, htelemetry, hreply, hnotices⟩
    exact ⟨h.link.sup hsup, h.link.crane hcrane, h.link.normal hnormal, h.link.telemetry htelemetry,
      h.link.reply hreply, h.notices hnotices⟩

/-! ## Starts -/

theorem Part.reset_urgentUnique (station : Byte) : (Part.reset station).UrgentUnique := List.Pairwise.nil

theorem Part.reset_stopLinesFollow (station : Byte) : (Part.reset station).StopLinesFollow :=
  fun c => by simp [Part.reset, Lines.reset, OutLine.reset, Part.latch, Gate.reset, Latch.reset, CauseSet.none, CauseSet.any]

theorem Part.reset_slotsSorted (station : Byte) : (Part.reset station).SlotsSorted := List.Pairwise.nil

theorem Part.reset_withinCapacity (station : Byte) : (Part.reset station).WithinCapacity := by
  simp [Part.WithinCapacity, Part.reset, Link.reset, Port.reset, Mgmt.reset]

/-- What is reached from a power-on value by operations that keep the laws obeys them, whatever was before. -/
theorem Part.keepsLaws_of_reset (p : Part) {station : Byte} {q : Part} (h : (Part.reset station).Safe q) : p.KeepsLaws q :=
  have ⟨hu, hl, hs, hc⟩ := h.keepsLaws
  ⟨fun _ => hu (reset_urgentUnique station), fun _ => hl (reset_stopLinesFollow station),
    fun _ => hs (reset_slotsSorted station), fun _ => hc (reset_withinCapacity station)⟩

theorem startPart_keepsLaws (p : Part) (straps : BitVec 2) (cause : Nat) : p.KeepsLaws (startPart straps cause) :=
  p.keepsLaws_of_reset (Part.notify_keeps _ _ _ _ _ _).safe

theorem Part.holdInReset_keepsLaws (p : Part) : p.KeepsLaws p.holdInReset :=
  p.keepsLaws_of_reset (Part.safe_of_eq rfl rfl rfl rfl rfl)

theorem exec_start_keepsLaws {i : Instr} {s t : State} (hi : startsPart i = true) (h : exec i s = .next t) :
    s.part.KeepsLaws t.part := by
  cases i with
  | powerOn straps => cases h; exact startPart_keepsLaws _ _ _
  | resetLineAsserted => cases h; exact s.part.holdInReset_keepsLaws
  | resetLineReleased straps =>
    cases h
    dsimp only
    split
    · exact startPart_keepsLaws _ _ _
    · exact (Part.Safe.refl _).keepsLaws
  | _ => cases hi

/-! ## Commands -/

theorem State.act_safe {f : Part → Part} (hf : ∀ p : Part, p.Safe (f p)) {s t : State} (h : s.act f = .next t) :
    s.part.Safe t.part := by
  cases h
  split
  · exact .refl _
  · exact hf _

theorem Part.receive_safe (port : PortId) (line : List Byte) (p : Part) : p.Safe (p.receive port line) :=
  (p.receive_keeps port line).safe

theorem Part.onPort_safe (port : PortId) {f : Port → Port} (hf : ∀ r : Port, r.Within (f r)) (p : Part) :
    p.Safe (p.onPort port f) := (p.onPort_keeps port f hf).safe

/-- A length byte above 60 is fed to a receiver that expects one, and skipped by any other (R161). -/
theorem Port.feed_ite_within (length : Byte) (b : Prop) [Decidable b] (r : Port) :
    r.Within (if b then r.feed length else r) := by
  split
  · exact r.feed_within length
  · exact id

theorem exec_safe {i : Instr} {s t : State} (hi : startsPart i = false) (h : exec i s = .next t) : s.part.Safe t.part := by
  cases i with
  | powerOn => cases hi
  | resetLineAsserted => cases hi
  | resetLineReleased => cases hi
  | frameReceived port line => exact State.act_safe (Part.receive_safe port line) h
  | interByteGap port next => exact State.act_safe (Part.onPort_safe port fun r => r.gap_within next) h
  | supervisorFrameForward => exact State.act_safe (fun p => p.forwardSup_keeps.safe) h
  | craneFrameForward => exact State.act_safe (fun p => p.forwardCrane_keeps.safe) h
  | frameSent port => exact State.act_safe (fun p => (p.frameSent_keeps port).safe) h
  | replyEntryGrant => exact State.act_safe (fun p => p.grantReply_keeps.safe) h
  | pendingCommandQueued => exact State.act_safe Part.queuePending_safe h
  | position => exact State.act_safe Part.positionFrame_safe h
  | load => exact State.act_safe Part.loadFrame_safe h
  | done => exact State.act_safe Part.doneFrame_safe h
  | bayReport => exact State.act_safe Part.bayReportFrame_safe h
  | goto => exact State.act_safe (Part.orderFrame_safe .goto .goto) h
  | pick => exact State.act_safe (Part.orderFrame_safe .pick .pick) h
  | place => exact State.act_safe (Part.orderFrame_safe .place .place) h
  | park => exact State.act_safe (Part.orderFrame_safe .park .park) h
  | halt => exact State.act_safe Part.haltFrame_safe h
  | broadcastHalt => exact State.act_safe Part.broadcastHaltFrame_safe h
  | staleExpiry c => exact State.act_safe (fun p => p.expireStale_safe c) h
  | holdExpiry k => exact State.act_safe (fun p => p.expireHoldOf_safe k) h
  | reservationExpiry i => exact State.act_safe (fun p => p.expireReservation_safe i) h
  | weighExpiry c => exact State.act_safe (fun p => p.expireWeigh_safe c) h
  | reArmExpiry b => exact State.act_safe (fun p => p.expireRearm_safe b) h
  | flashTimerExpiry b => exact State.act_safe (fun p => p.expireFlash_safe b) h
  | dwellEnd => exact State.act_safe Part.expireDwell_safe h
  | filterSample levels => exact State.act_safe (fun p => p.sampleInputs_safe levels) h
  | inputLevelAccepted n => exact State.act_safe (fun p => p.inputAccepted_safe n) h
  | checkDelayEnd n => exact State.act_safe (fun p => (p.endDelay_keeps n).safe) h
  | allocate => exact State.act_safe Part.allocateFrame_safe h
  | allocationSearch =>
    exact State.act_safe (fun p => Part.safe_ite _ (fun _ => p.startSearch_keeps.safe) fun _ => .refl p) h
  | allocationSearchComplete => exact State.act_safe Part.finishSearch_safe h
  | slotMapRequestServed => exact State.act_safe Part.serveRequest_safe h
  | tableWriteCrane =>
    exact State.act_safe (fun p => p.manage_safe _ _ _ fun f q => q.await_safe.trans (serveCraneTable_safe f _)) h
  | tableWriteZone => exact State.act_safe (fun p => p.manage_safe _ _ _ serveZoneTable_safe) h
  | tableWriteEntry => exact State.act_safe (fun p => p.manage_safe _ _ _ serveEntryTable_safe) h
  | tableWriteBlock => exact State.act_safe (fun p => p.manageSlots_safe _ _ _ serveBlockTable_safe) h
  | tableWriteSlotGeometry => exact State.act_safe (fun p => p.manageSlots_safe _ _ _ serveGeometryTable_safe) h
  | tableWriteGroupMap => exact State.act_safe (fun p => p.manageSlots_safe _ _ _ serveGroupMap_safe) h
  | tableWriteCalibration => exact State.act_safe (fun p => p.manage_safe _ _ _ serveCalibration_safe) h
  | tableWriteBay =>
    exact State.act_safe (fun p => p.manage_safe _ _ _ fun f q => q.await_safe.trans (serveBayTable_safe f _)) h
  | tableWriteParameters => exact State.act_safe Part.parameterFrame_safe h
  | tableRead => exact State.act_safe Part.tableReadFrame_safe h
  | queryCrane =>
    exact State.act_safe (fun p => p.manage_safe _ _ _ fun f q => (serveQueryCrane_keeps f q trivial).safe) h
  | queryZone => exact State.act_safe (fun p => p.manage_safe _ _ _ fun f q => (serveQueryZone_keeps f q).safe) h
  | querySlot => exact State.act_safe (fun p => p.manageSlots_safe _ _ _ fun f q => (serveQuerySlot_keeps f q).safe) h
  | queryBlockSums =>
    exact State.act_safe (fun p => p.manageSlots_safe _ _ _ fun f q => (serveQueryBlockSums_keeps f q).safe) h
  | queryHook => exact State.act_safe (fun p => p.manage_safe _ _ _ fun f q => (serveQueryHook_keeps f q).safe) h
  | queryBay => exact State.act_safe (fun p => p.manage_safe _ _ _ fun f q => (serveQueryBay_keeps f q trivial).safe) h
  | queryLink => exact State.act_safe (fun p => p.manage_safe _ _ _ fun f q => (serveQueryLink_keeps f q).safe) h
  | queryPart => exact State.act_safe (fun p => p.manage_safe _ _ _ fun f q => (serveQueryPart_keeps f q).safe) h
  | querySummary => exact State.act_safe (fun p => p.manage_safe _ _ _ fun f q => (serveQuerySummary_keeps f q).safe) h
  | reserve => exact State.act_safe (fun p => p.manageSlots_safe _ _ _ fun f q => (serveReserve_keeps f q).safe) h
  | unreserve => exact State.act_safe (fun p => p.manageSlots_safe _ _ _ fun f q => (serveUnreserve_keeps f q).safe) h
  | slotSet => exact State.act_safe (fun p => p.manageSlots_safe _ _ _ fun f q => (serveSlotSet_keeps f q).safe) h
  | planLoad =>
    exact State.act_safe (fun p => p.manage_safe _ _ _ fun f q => q.await_safe.trans (servePlanLoad_keeps f _).safe) h
  | planClear =>
    exact State.act_safe (fun p => p.manage_safe _ _ _ fun f q => q.await_safe.trans (servePlanClear_keeps f _).safe) h
  | bayAck =>
    exact State.act_safe (fun p => p.manage_safe _ _ _ fun f q => q.await_safe.trans (serveBayAck_keeps f _).safe) h
  | hold => exact State.act_safe (fun p => p.manage_safe _ _ _ fun f q => (serveHold_keeps f q).safe) h
  | unhold =>
    exact State.act_safe (fun p => p.manage_safe _ _ _ fun f q => q.await_safe.trans (serveUnhold_keeps f _).safe) h
  | block =>
    exact State.act_safe (fun p => p.manage_safe _ _ _ fun f q => q.await_safe.trans (serveBlock_keeps f _).safe) h
  | unblock => exact State.act_safe (fun p => p.manage_safe _ _ _ fun f q => (serveUnblock_keeps f q).safe) h
  | stopRelease =>
    exact State.act_safe (fun p => p.manage_safe _ _ _ fun f q => q.await_safe.trans (serveStopRelease_safe f _)) h
  | modeRun => exact State.act_safe (fun p => p.manage_safe _ _ _ fun f q => q.await_safe.trans (serveMode_safe f _)) h
  | modeMaintenance =>
    exact State.act_safe (fun p => p.manage_safe _ _ _ fun f q => q.await_safe.trans (serveMode_safe f _)) h
  | restart => exact State.act_safe (fun p => p.manage_safe _ _ _ fun f q => q.settle_safe.trans (serveRestart_safe f _)) h
  | frameLengthAbove60 port length =>
    exact State.act_safe (Part.onPort_safe port fun r => Port.feed_ite_within length _ r) h

theorem exec_keepsLaws {i : Instr} {s t : State} (h : exec i s = .next t) : s.part.KeepsLaws t.part := by
  cases hi : startsPart i with
  | true => exact exec_start_keepsLaws hi h
  | false => exact (exec_safe hi h).keepsLaws

/-! ## The idle step -/

theorem State.idle_safe (s : State) : s.part.Safe s.idle.part := by
  unfold State.idle
  split
  · exact .refl _
  · split
    · exact .refl _
    · exact Part.safe_of_eq rfl rfl rfl rfl rfl

/-- Settles O3: every command but a start keeps what `Part.Safe` says, a start reaches a reset part, and the idle step changes nothing
that the laws are about. -/
theorem everyStepKeepsTheLaws : Obligations.EveryStepKeepsTheLaws := by
  intro s t h
  unfold step at h
  split at h
  · cases h; exact s.idle_safe.keepsLaws
  · next i rest _ => exact exec_keepsLaws (s := { s with pending := rest }) h

end Sys2Proof.Machine
end

section
/-! Which tables, parameters and modes a command may change (R2, R4, R23, R51, R97, R99, R127, R135, R164, R178, R182, R187). -/

namespace Sys2Proof.Machine

/-! ## The relation -/

/-- The tables that an operation may write; those of the slot map, the routing map and the parameters are also written by the frames
that wait at the slot map. -/
structure Writes where
  entries : Prop
  zones : Prop
  entryPoints : Prop
  blocks : Prop
  geometry : Prop
  routing : Prop
  bays : Prop
  params : Prop
  mode : Prop

/-- What an operation that writes no more than `W` leaves. -/
structure Part.Leaves (W : Writes) (p q : Part) : Prop where
  entries : W.entries ∨ q.tracker.entries = p.tracker.entries
  zones : W.zones ∨ ∀ k, (q.zone k).entry = (p.zone k).entry
  entryPoints : W.entryPoints ∨ q.gate.entryPoints = p.gate.entryPoints
  blocks : W.blocks ∨ q.slots.blocks = p.slots.blocks
  geometry : W.geometry ∨ ∀ i, (q.slots.slot i).map Slot.geo = (p.slots.slot i).map Slot.geo
  routing : W.routing ∨ q.engine.routing = p.engine.routing
  bays : W.bays ∨ q.bays.entries = p.bays.entries
  params : W.params ∨ q.params = p.params
  mode : W.mode ∨ q.mgmt.mode = p.mgmt.mode
  clock : q.mgmt.clock = p.mgmt.clock
  station : q.link.station = p.link.station

/-- An operation that keeps every table. -/
theorem Part.Keeps.leaves {S : Scope} {W : Writes} {p q : Part} (h : p.Keeps S q) : p.Leaves W q where
  entries := .inr h.entries
  zones := .inr h.zones
  entryPoints := .inr h.entryPoints
  blocks := .inr h.blocks
  geometry := .inr h.geometry
  routing := .inr h.routing
  bays := .inr h.bayEntries
  params := .inr h.params
  mode := .inr h.mode
  clock := h.clock
  station := h.link.station

variable {W : Writes}

theorem Part.Leaves.refl (p : Part) : p.Leaves W p := (Part.Keeps.refl (S := Scope.wide) p).leaves

theorem or_eq_trans {α : Type} {w : Prop} {a b c : α} (h : w ∨ b = a) (k : w ∨ c = b) : w ∨ c = a := by
  rcases h with h | rfl
  · exact .inl h
  · exact k

theorem or_forall_eq_trans {ι α : Type} {w : Prop} {a b c : ι → α} (h : w ∨ ∀ i, b i = a i) (k : w ∨ ∀ i, c i = b i) :
    w ∨ ∀ i, c i = a i := by
  rcases h with h | h
  · exact .inl h
  · exact k.imp_right fun k i => (k i).trans (h i)

theorem Part.Leaves.trans {p q r : Part} (h : p.Leaves W q) (k : q.Leaves W r) : p.Leaves W r where
  entries := or_eq_trans h.entries k.entries
  zones := or_forall_eq_trans h.zones k.zones
  entryPoints := or_eq_trans h.entryPoints k.entryPoints
  blocks := or_eq_trans h.blocks k.blocks
  geometry := or_forall_eq_trans h.geometry k.geometry
  routing := or_eq_trans h.routing k.routing
  bays := or_eq_trans h.bays k.bays
  params := or_eq_trans h.params k.params
  mode := or_eq_trans h.mode k.mode
  clock := k.clock.trans h.clock
  station := k.station.trans h.station

theorem Part.leaves_ite {p q r : Part} (b : Prop) [Decidable b] (h : b → p.Leaves W q) (k : ¬ b → p.Leaves W r) :
    p.Leaves W (if b then q else r) := by
  split
  · exact h ‹_›
  · exact k ‹_›

theorem Part.leaves_foldl {α : Type} (f : Part → α → Part) (h : ∀ (p : Part) (a : α), p.Leaves W (f p a)) (l : List α)
    (p : Part) : p.Leaves W (l.foldl f p) := by
  induction l generalizing p with
  | nil => exact .refl p
  | cons a rest ih => exact (h p a).trans (ih _)

/-! ## One table written -/

theorem Part.setEntry_leaves (p : Part) (c : Fin 4) (e : CraneEntry) (h : W.entries) : p.Leaves W (p.setEntry c e) :=
  { Part.Leaves.refl p with entries := .inl h }

theorem Part.setZone_leaves (p : Part) (k : Nat) (z : Zone) (h : W.zones) : p.Leaves W (p.setZone k z) := by
  unfold Part.setZone
  split
  · exact { Part.Leaves.refl p with zones := .inl h }
  · exact .refl p

theorem Part.leaves_slots (p : Part) (m : SlotMap) (hb : W.blocks ∨ m.blocks = p.slots.blocks)
    (hg : W.geometry ∨ ∀ i, (m.slot i).map Slot.geo = (p.slots.slot i).map Slot.geo) : p.Leaves W { p with slots := m } :=
  { Part.Leaves.refl p with blocks := hb, geometry := hg }

theorem Part.setBayEntry_leaves (p : Part) (b : Fin 6) (e : BayEntry) (h : W.bays) : p.Leaves W (p.setBayEntry b e) :=
  { Part.Leaves.refl p with bays := .inl h }

theorem Part.setParams_leaves (p : Part) (q : Params) (h : W.params) : p.Leaves W (p.setParams q) := by
  unfold Part.setParams
  exact Part.leaves_ite _ (fun _ => { Part.Leaves.refl p with params := .inl h })
    fun _ => { Part.Leaves.refl p with params := .inl h }

theorem Part.changeMode_leaves (p : Part) (m : Mode) (cause : Nat) (h : W.mode) : p.Leaves W (p.changeMode m cause) := by
  have hmode : p.Leaves W { p with mgmt := { p.mgmt with mode := m } } := { Part.Leaves.refl p with mode := .inl h }
  exact hmode.trans (Part.notify_keeps (S := Scope.wide) _ _ _ _ _ _).leaves

/-! ## The tables' owners -/

theorem serveTable_leaves (owner : Frame → Nat → List (List Byte) → Part → Part) (f : Frame) (p : Part)
    (h : ∀ n es, p.Leaves W (owner f n es p)) : p.Leaves W (serveTable owner f p) := by
  unfold serveTable
  split
  · exact (p.refuse_keeps (S := Scope.wide) _ _ _).leaves
  · exact (p.refuse_keeps (S := Scope.wide) _ _ _).leaves
  · exact h _ _

theorem ownerStartup_leaves {α : Type} (read : Nat → List Byte → Option α) (apply : List (Nat × α) → Part → Part) (f : Frame)
    (n : Nat) (es : List (List Byte)) (p : Part) (h : ∀ as, p.Leaves W (apply as p)) :
    p.Leaves W (ownerStartup read apply f n es p) := by
  unfold ownerStartup
  split
  · exact (p.wrongMode_keeps (S := Scope.wide) _).leaves
  · split
    · exact (p.refuseAt_keeps (S := Scope.wide) _ _ _).leaves
    · exact (h _).trans (Part.ok_keeps (S := Scope.wide) _ _ _).leaves

theorem Part.craneChanged_leaves (p : Part) (c : Fin 4) (e : CraneEntry) (h : W.entries) :
    p.Leaves W (p.craneChanged c e) := by
  unfold Part.craneChanged
  extract_lets p1 p2 t p3
  have h1 : p.Leaves W p1 :=
    (p.setEntry_leaves c e h).trans (Part.setRecord_keeps (S := Scope.wide) _ c CraneRecord.reset trivial).leaves
  have h2 : p1.Keeps Scope.wide p2 :=
    ((p1.resetHook_keeps c).trans (Part.emptyLatch_keeps _ c)).trans (Part.setOrder_keeps _ c none)
  have h3 : p2.Keeps Scope.wide p3 := p2.keeps_tracker _ rfl (.inr rfl)
  have h4 : p3.Keeps Scope.wide (if e.configured then p3.requestStop c .startup none else p3.clearFault c.val) :=
    Part.keeps_ite _ (fun _ => p3.requestStop_keeps _ _ _) fun _ => p3.clearFault_keeps _
  exact h1.trans ((h2.trans h3).trans h4).leaves

theorem serveCraneTable_leaves (f : Frame) (p : Part) (h : W.entries) : p.Leaves W (serveCraneTable f p) :=
  serveTable_leaves _ f p fun n es => ownerStartup_leaves _ _ f n es p fun _ =>
    Part.leaves_foldl _ (fun q (e : Nat × CraneEntry) => by
      unfold applyCraneEntry
      split
      · exact .refl q
      · exact Part.leaves_ite _ (fun _ => q.setEntry_leaves _ _ h) fun _ => q.craneChanged_leaves _ _ h) _ p

theorem serveZoneTable_leaves (f : Frame) (p : Part) (h : W.zones) : p.Leaves W (serveZoneTable f p) :=
  serveTable_leaves _ f p fun n es => ownerStartup_leaves _ _ f n es p fun _ =>
    Part.leaves_foldl _ (fun q (e : Nat × ZoneEntry) => q.setZone_leaves e.1 ((q.zone e.1).withEntry e.2) h) _ p

theorem serveEntryTable_leaves (f : Frame) (p : Part) (h : W.entryPoints) : p.Leaves W (serveEntryTable f p) :=
  serveTable_leaves _ f p fun n es => ownerStartup_leaves _ _ f n es p fun _ =>
    Part.leaves_foldl _ (fun q (e : Nat × EntryPoint) => by
      unfold applyEntryPoint
      split
      · exact .refl q
      · exact { Part.Leaves.refl q with entryPoints := .inl h }) _ p

theorem serveBlockTable_leaves (f : Frame) (p : Part) (h : W.blocks) : p.Leaves W (serveBlockTable f p) := by
  refine serveTable_leaves _ f p fun n es => ?_
  unfold ownerBlocks
  split
  · exact (p.wrongMode_keeps (S := Scope.wide) _).leaves
  · exact (p.refuseAt_keeps (S := Scope.wide) _ _ _).leaves
  · refine Part.Leaves.trans (p.leaves_slots _ (.inl h) (.inr fun i => ?_)) (Part.ok_keeps (S := Scope.wide) _ _ _).leaves
    rw [SlotMap.slot, applyBlocks_slots]
    rfl

theorem SlotMap.applyGeometries_blocks (gs : List (Nat × Option Geometry)) (m : SlotMap) :
    (gs.foldl SlotMap.applyGeometry m).blocks = m.blocks := by
  induction gs generalizing m with
  | nil => rfl
  | cons e rest ih =>
    rw [List.foldl_cons, ih]
    unfold SlotMap.applyGeometry
    split
    · rfl
    · split <;> rfl

theorem serveGeometryTable_leaves (f : Frame) (p : Part) (h : W.geometry) : p.Leaves W (serveGeometryTable f p) := by
  refine serveTable_leaves _ f p fun n es => ?_
  unfold ownerGeometry
  split
  · exact (p.wrongMode_keeps (S := Scope.wide) _).leaves
  · split
    · exact (p.refuseAt_keeps (S := Scope.wide) _ _ _).leaves
    · split
      · exact (p.refuseAt_keeps (S := Scope.wide) _ _ _).leaves
      · split
        · exact (p.refuseAt_keeps (S := Scope.wide) _ _ _).leaves
        · extract_lets m
          split
          · exact (p.refuseAt_keeps (S := Scope.wide) _ _ _).leaves
          · exact (p.leaves_slots m (.inr (SlotMap.applyGeometries_blocks _ _)) (.inl h)).trans
              (Part.ok_keeps (S := Scope.wide) _ _ _).leaves

theorem serveGroupMap_leaves (f : Frame) (p : Part) (h : W.routing) : p.Leaves W (serveGroupMap f p) := by
  refine serveTable_leaves _ f p fun n es => ?_
  unfold ownerGroupMap
  split
  · exact (p.refuse_keeps (S := Scope.wide) _ _ _).leaves
  · refine Part.Leaves.trans (Part.leaves_foldl _ (fun q e => ?_) _ p) (Part.ok_keeps (S := Scope.wide) _ _ _).leaves
    unfold applyRouting
    split
    · exact { Part.Leaves.refl q with routing := .inl h }
    · exact .refl q

theorem serveCalibration_keeps {S : Scope} (f : Frame) (n : Nat) (es : List (List Byte)) (p : Part) :
    p.Keeps S (ownerCalibration f n es p) := by
  unfold ownerCalibration
  extract_lets points
  split
  · exact p.refuse_keeps _ _ _
  · split
    · exact p.refuse_keeps _ _ _
    · extract_lets h0 p1
      have h1 : p.Keeps S p1 := p.setHook_keeps _ _
      exact (h1.trans (Part.keeps_ite _ (fun _ => p1.activateStaged_keeps _) fun _ => .refl p1)).trans (Part.ok_keeps _ _ _)

theorem Part.bayJoins_leaves (p : Part) (b : Fin 6) (e : BayEntry) (h : W.bays) : p.Leaves W (p.bayJoins b e) := by
  unfold Part.bayJoins
  extract_lets p1
  have h1 : p.Leaves W p1 := (p.setBayEntry_leaves b e h).trans
    ((Part.setBay_keeps (S := Scope.wide) _ b BayRecord.reset (.inl trivial)).trans (Part.commandLamps_keeps _ _ _ _)).leaves
  exact h1.trans (Part.leaves_ite _ (fun _ => (p1.startPoll_keeps (S := Scope.wide) b trivial).leaves) fun _ => .refl p1)

theorem Part.bayLeaves_leaves (p : Part) (b : Fin 6) (e : BayEntry) (h : W.bays) : p.Leaves W (p.bayLeaves b e) := by
  unfold Part.bayLeaves
  extract_lets mask p1 p2 p3 r p4 p5
  have h1 : p.Leaves W p1 := p.setBayEntry_leaves b e h
  have h2 : p1.Keeps Scope.wide p2 :=
    Part.keeps_ite _ (fun _ => (p1.discardPlan_keeps _).trans (Part.derive_keeps _ _)) fun _ => .refl p1
  have h3 : p2.Keeps Scope.wide p3 := p2.clearBayHold_keeps _ _
  have h4 : p3.Keeps Scope.wide p4 := (p3.setBay_keeps _ _ (.inl trivial)).trans (Part.commandLamps_keeps _ _ _ _)
  have h5 : p4.Keeps Scope.wide p5 := (p4.clearFault_keeps _).trans (Part.clearFault_keeps _ _)
  have h6 : p5.Keeps Scope.wide (if p5.bays.scan.any fun sc => sc.bay == b then p5.moveScan b else p5) :=
    Part.keeps_ite _ (fun _ => p5.moveScan_keeps _ trivial) fun _ => .refl p5
  exact h1.trans ((((h2.trans h3).trans h4).trans h5).trans h6).leaves

theorem Part.bayStays_leaves (p : Part) (b : Fin 6) (e : BayEntry) (h : W.bays) : p.Leaves W (p.bayStays b e) := by
  unfold Part.bayStays
  extract_lets old p1
  have h1 : p.Leaves W p1 := p.setBayEntry_leaves b e h
  exact h1.trans (Part.leaves_ite _
    (fun _ => ((p1.clearBayHold_keeps (S := Scope.wide) _ _).trans (Part.setBayHold_keeps _ _ _)).leaves) fun _ => .refl p1)

theorem serveBayTable_leaves (f : Frame) (p : Part) (h : W.bays) : p.Leaves W (serveBayTable f p) := by
  refine serveTable_leaves _ f p fun n es => ?_
  unfold ownerBays
  split
  · exact (p.wrongMode_keeps (S := Scope.wide) _).leaves
  · split
    · split
      · exact (p.refuseAt_keeps (S := Scope.wide) _ _ _).leaves
      · refine Part.Leaves.trans ?_ (Part.ok_keeps (S := Scope.wide) _ _ _).leaves
        unfold Part.applyBayEntry
        split
        · exact p.bayStays_leaves _ _ h
        · exact p.bayJoins_leaves _ _ h
        · exact p.bayLeaves_leaves _ _ h
        · exact p.setBayEntry_leaves _ _ h
    · exact (p.refuseAt_keeps (S := Scope.wide) _ _ _).leaves

theorem serveParams_leaves (f : Frame) (p : Part) (h : W.params) : p.Leaves W (serveParams f p) := by
  refine serveTable_leaves _ f p fun n es => ?_
  unfold ownerParams
  split
  · exact (p.refuseAt_keeps (S := Scope.wide) _ _ _).leaves
  · extract_lets q
    split
    · exact (p.refuseAt_keeps (S := Scope.wide) _ _ _).leaves
    · split
      · exact (p.wrongMode_keeps (S := Scope.wide) _).leaves
      · exact (p.setParams_leaves q h).trans (Part.ok_keeps (S := Scope.wide) _ _ _).leaves

/-! ## Modes and the restart -/

theorem Part.buildGrants_keeps {S : Scope} (p : Part) : p.Keeps S p.buildGrants :=
  p.keeps_arbiter p.buildGrants.arbiter fun k => by
    simp only [Part.buildGrants, Fin.getElem_fin, Vector.getElem_ofFn]
    rfl

theorem Part.removeStartup_leaves (p : Part) (c : Fin 4) : p.Leaves W (p.removeStartup c) := by
  unfold Part.removeStartup
  split
  · extract_lets p1
    have h1 : p.Keeps (Scope.dropping c) p1 := p.dropCause_keeps _ _ rfl
    split
    · exact h1.leaves
    · next e =>
      rw [Bool.not_eq_true] at e
      exact (h1.trans (p1.latchCleared_keeps _ _ e)).leaves
  · exact .refl p

theorem Part.enterRun_leaves (p : Part) (h : W.mode) : p.Leaves W p.enterRun := by
  unfold Part.enterRun
  extract_lets p1
  have h1 : p.Leaves W p1 := (p.buildGrants_keeps (S := Scope.wide)).leaves
  exact (h1.trans (Part.leaves_foldl _ (fun q c => q.removeStartup_leaves c) _ p1)).trans (Part.changeMode_leaves _ _ _ h)

theorem Part.judgeRun_leaves (p : Part) (f : Frame) (h : W.mode) : p.Leaves W (p.judgeRun f) := by
  unfold Part.judgeRun
  split
  · exact (p.refuseAt_keeps (S := Scope.wide) _ _ _).leaves
  · extract_lets p1
    have h1 : p.Keeps Scope.wide p1 := Part.keeps_foldl _ (fun q c => q.requestEnvelope_keeps c trivial) _ p
    split
    · exact (h1.trans (p1.refuseAt_keeps _ _ _)).leaves
    · exact (h1.leaves.trans (p1.enterRun_leaves h)).trans (Part.ok_keeps (S := Scope.wide) _ _ _).leaves

theorem Part.maintainCrane_keeps {S : Scope} (p : Part) (c : Fin 4) : p.Keeps S (p.maintainCrane c) := by
  unfold Part.maintainCrane
  extract_lets tag p1 p2
  have h2 : p.Keeps S p2 := (p.endOrder_keeps _ _ _).trans (p1.onLink_keeps _ (Link.removeCommands_keeps _ _))
  cases tag with
  | some t => exact h2.trans (p2.onLink_keeps _ (Link.putHalt_keeps _ _ _))
  | none => exact h2

theorem Part.enterMaintenance_leaves (p : Part) (h : W.mode) : p.Leaves W p.enterMaintenance :=
  (Part.keeps_foldl (S := Scope.wide) _ (fun q c => q.maintainCrane_keeps c) _ p).leaves.trans (Part.changeMode_leaves _ _ _ h)

theorem serveMode_leaves (f : Frame) (p : Part) (h : W.mode) : p.Leaves W (serveMode f p) := by
  unfold serveMode
  split
  · exact (p.refuse_keeps (S := Scope.wide) _ _ _).leaves
  · split
    · exact (p.ok_keeps (S := Scope.wide) _ _).leaves
    · exact p.judgeRun_leaves f h
    · exact p.judgeRun_leaves f h
  · split
    · exact (p.wrongMode_keeps (S := Scope.wide) _).leaves
    · exact (p.enterMaintenance_leaves h).trans (Part.ok_keeps (S := Scope.wide) _ _ _).leaves
    · exact (p.ok_keeps (S := Scope.wide) _ _).leaves
  · exact (p.refuse_keeps (S := Scope.wide) _ _ _).leaves

theorem Part.restartOrder_keeps {S : Scope} (p : Part) (c : Fin 4) : p.Keeps S (p.restartOrder c) := by
  unfold Part.restartOrder
  extract_lets p1 p2
  have h1 : p.Keeps S p1 := (p.endOrder_keeps _ _ _).trans (Part.clearDest_keeps _ _)
  have h2 : p1.Keeps S p2 := Part.keeps_ite _ (fun _ => p1.clearSource_keeps _) fun _ => .refl p1
  exact (h1.trans h2).trans (p2.setOrder_keeps _ _)

theorem Arbiter.restart_entry (a : Arbiter) (k : Fin 32) : a.restart.zones[k].entry = a.zones[k].entry := by
  simp only [Arbiter.restart, Fin.getElem_fin, Vector.getElem_ofFn]
  rfl

/-- The hooks and the arbiter of a part at a restart. -/
theorem Part.keeps_restart {S : Scope} (p : Part) (hs : Vector Hook 4) :
    p.Keeps S { p with hooks := hs, arbiter := p.arbiter.restart } :=
  (p.keeps_arbiter p.arbiter.restart p.arbiter.restart_entry).trans (Part.keeps_hooks _ hs)

theorem serveRestart_leaves (f : Frame) (p : Part) (h : W.mode) : p.Leaves W (serveRestart f p) := by
  unfold serveRestart
  split
  · exact (p.refuse_keeps (S := Scope.wide) _ _ _).leaves
  · extract_lets p1 p2 p3 p4
    have h1 : p.Keeps Scope.wide p1 := Part.keeps_foldl _ (fun q c => q.restartOrder_keeps c) _ p
    have h2 : p1.Keeps Scope.wide p2 := p1.keeps_restart _
    have h3 : p2.Keeps Scope.wide p3 := Part.settleRequests_keeps 12 p2
    have h4 : p3.Keeps Scope.wide p4 := Part.keeps_foldl _ (fun q c => q.requestStop_keeps _ _ _) _ p3
    exact ((((h1.trans h2).trans h3).trans h4).leaves.trans (p4.changeMode_leaves _ _ h)).trans
      (Part.ok_keeps (S := Scope.wide) _ _ _).leaves

/-! ## Service at the slot map -/

/-- The tables that a frame waiting at the slot map may write. -/
structure Writes.Waiting (W : Writes) : Prop where
  blocks : W.blocks
  geometry : W.geometry
  routing : W.routing
  params : W.params

theorem serveSlotFrame_leaves (f : Frame) (p : Part) (h : W.Waiting) : p.Leaves W (serveSlotFrame f p) := by
  unfold serveSlotFrame
  split
  · exact (serveReserve_keeps (S := Scope.wide) f p).leaves
  · exact (serveUnreserve_keeps (S := Scope.wide) f p).leaves
  · exact (serveSlotSet_keeps (S := Scope.wide) f p).leaves
  · split
    · exact serveBlockTable_leaves f p h.blocks
    · exact serveGeometryTable_leaves f p h.geometry
    · exact (serveGroupMap_leaves f p h.routing).trans (Part.renewSearch_keeps (S := Scope.wide) _).leaves
    · exact (serveParams_leaves f p h.params).trans (Part.renewSearch_keeps (S := Scope.wide) _).leaves
  · exact (serveTableRead_keeps (S := Scope.wide) f p).leaves
  · exact Part.leaves_ite _ (fun _ => (serveQuerySlot_keeps (S := Scope.wide) f p).leaves)
      fun _ => (serveQueryBlockSums_keeps (S := Scope.wide) f p).leaves
  · exact .refl p

theorem SlotTask.serve_leaves (t : SlotTask) (p : Part) (h : W.Waiting) : p.Leaves W (t.serve p) := by
  unfold SlotTask.serve
  split
  · exact (p.completeSearch_keeps (S := Scope.wide)).leaves
  · exact (p.hold_keeps (S := Scope.wide) none).leaves.trans (serveSlotFrame_leaves _ _ h)
  · split
    · next c f _ k _ =>
      cases readOrder k f.payload with
      | none => exact .refl p
      | some r => exact (p.resolveOrder_keeps (S := Scope.wide) c r).leaves
    · exact .refl p
  · exact (serveReservationExpiry_keeps (S := Scope.wide) _ p).leaves

/-- The frames that wait write their tables only while some request waits. -/
abbrev Part.WaitingIn (p : Part) (W : Writes) : Prop := p.slots.requests ≠ [] → W.Waiting

theorem Part.serveNext_leaves (p : Part) (h : p.WaitingIn W) : p.Leaves W p.serveNext := by
  unfold Part.serveNext
  split
  · exact .refl p
  · next e =>
    exact (p.setRequests_keeps (S := Scope.wide) _).leaves.trans (SlotTask.serve_leaves _ _ (h (by simp [e])))

theorem Part.serveMany_leaves (n : Nat) (p : Part) (h : W.Waiting) : p.Leaves W (Part.serveMany n p) := by
  induction n generalizing p with
  | zero => exact .refl p
  | succ n ih => exact (p.serveNext_leaves fun _ => h).trans (ih _)

theorem Part.settle_leaves (p : Part) (h : p.WaitingIn W) : p.Leaves W p.settle := by
  by_cases hq : p.slots.requests = []
  · rw [p.settle_of_none hq]; exact .refl p
  · exact Part.serveMany_leaves _ p (h hq)

theorem Part.await_leaves (p : Part) (h : p.WaitingIn W) : p.Leaves W p.await :=
  Part.leaves_ite _ (fun _ => p.settle_leaves h) fun _ => .refl p

theorem Part.dropSup_await_leaves (p : Part) (h : p.WaitingIn W) : p.Leaves W p.dropSup.await :=
  (p.dropSup_keeps (S := Scope.wide)).leaves.trans (p.dropSup.await_leaves h)

theorem Part.dropCrane_await_leaves (p : Part) (h : p.WaitingIn W) : p.Leaves W p.dropCrane.await :=
  (p.dropCrane_keeps (S := Scope.wide)).leaves.trans (p.dropCrane.await_leaves h)

/-! ## How a command reaches its unit -/

theorem Part.orderFrame_leaves (k : Kind) (kind : OrderKind) (p : Part) (h : p.WaitingIn W) :
    p.Leaves W (p.orderFrame k kind) := by
  unfold Part.orderFrame
  split
  · exact .refl p
  · split
    · split
      · split
        · exact (p.dropSup_keeps.trans (Part.queueTask_keeps (S := Scope.wide) _ _)).leaves
        · exact (p.dropSup_await_leaves h).trans (Part.takeOrder_keeps (S := Scope.wide) _ _ _ _).leaves
      · exact .refl p
    · exact .refl p

theorem Part.haltFrame_leaves (p : Part) (h : p.WaitingIn W) : p.Leaves W p.haltFrame := by
  unfold Part.haltFrame
  split
  · exact .refl p
  · split
    · exact Part.leaves_ite _
        (fun _ => (p.dropSup_await_leaves h).trans (Part.takeHalt_keeps (S := Scope.wide) _ _ _).leaves) fun _ => .refl p
    · exact .refl p

theorem Part.broadcastHaltFrame_leaves (p : Part) (h : p.WaitingIn W) : p.Leaves W p.broadcastHaltFrame := by
  unfold Part.broadcastHaltFrame
  split
  · exact .refl p
  · split
    · exact Part.leaves_ite _
        (fun _ => (p.dropSup_await_leaves h).trans (Part.takeBroadcastHalt_keeps (S := Scope.wide) _ _).leaves)
        fun _ => .refl p
    · exact .refl p

theorem Part.manage_leaves (k : Kind) (want : List Byte → Bool) (serve : Frame → Part → Part) (p : Part)
    (h : ∀ f, p.dropSup.Leaves W (serve f p.dropSup)) : p.Leaves W (p.manage k want serve) := by
  unfold Part.manage
  split
  · exact .refl p
  · exact (p.dropSup_keeps (S := Scope.wide)).leaves.trans
      (Part.leaves_ite _ (fun _ => h _) fun _ => (Part.refuse_keeps (S := Scope.wide) _ _ _ _).leaves)

theorem Part.manageSlots_leaves (k : Kind) (want : List Byte → Bool) (serve : Frame → Part → Part) (p : Part)
    (h : ∀ f, p.dropSup.Leaves W (serve f p.dropSup)) : p.Leaves W (p.manageSlots k want serve) :=
  p.manage_leaves k want _ fun f => Part.leaves_ite _ (fun _ => h f)
    fun _ => ((p.dropSup.hold_keeps (some f)).trans (Part.queueTask_keeps (S := Scope.wide) _ _)).leaves

/-- A frame whose owner keeps every table. -/
theorem Part.manage_keeps_leaves (k : Kind) (want : List Byte → Bool) (serve : Frame → Part → Part)
    (h : ∀ f (q : Part), q.Keeps Scope.wide (serve f q)) (p : Part) : p.Leaves W (p.manage k want serve) :=
  p.manage_leaves k want serve fun f => (h f _).leaves

theorem Part.manageSlots_keeps_leaves (k : Kind) (want : List Byte → Bool) (serve : Frame → Part → Part)
    (h : ∀ f (q : Part), q.Keeps Scope.wide (serve f q)) (p : Part) : p.Leaves W (p.manageSlots k want serve) :=
  p.manageSlots_leaves k want serve fun f => (h f _).leaves

/-- A frame that is served once the requests that wait are served, by an owner that writes no more than `W`. -/
theorem Part.manage_await_leaves (k : Kind) (want : List Byte → Bool) (serve : Frame → Part → Part) (p : Part)
    (hw : p.WaitingIn W) (h : ∀ f (q : Part), q.Leaves W (serve f q)) :
    p.Leaves W (p.manage k want fun f p => serve f p.await) :=
  p.manage_leaves k want _ fun f => (p.dropSup.await_leaves hw).trans (h f _)

theorem Part.whenDue_leaves (p : Part) (due : Part → Bool) (act : Part → Part) (hw : p.WaitingIn W)
    (h : ∀ q, due q = true → q.Keeps Scope.wide (act q)) : p.Leaves W (p.whenDue due act) := by
  unfold Part.whenDue
  split
  · exact .refl p
  · split
    · next h' => exact (p.await_leaves hw).trans (h _ h').leaves
    · exact p.await_leaves hw

theorem Part.parameterFrame_leaves (p : Part) (h : W.params) : p.Leaves W p.parameterFrame :=
  Part.leaves_ite _ (fun _ => p.manageSlots_leaves _ _ _ fun f => serveParams_leaves f _ h)
    fun _ => p.manage_leaves _ _ _ fun f => serveParams_leaves f _ h

theorem Part.tableReadFrame_leaves (p : Part) : p.Leaves W p.tableReadFrame :=
  Part.leaves_ite _ (fun _ => p.manageSlots_keeps_leaves _ _ _ serveTableRead_keeps)
    fun _ => p.manage_keeps_leaves _ _ _ serveTableRead_keeps

theorem Part.allocateFrame_leaves (p : Part) : p.Leaves W p.allocateFrame := by
  unfold Part.allocateFrame
  extract_lets busy
  split
  · exact Part.leaves_ite _ (fun _ => .refl p)
      fun _ => ((p.hold_keeps none).trans (serveAllocate_keeps (S := Scope.wide) _ _)).leaves
  · exact p.manage_keeps_leaves _ _ _ fun f q =>
      Part.keeps_ite _ (fun _ => q.hold_keeps (some f)) fun _ => serveAllocate_keeps f q

/-- A crane telegram: the unit acts on its copy, and the frame goes on to TELEMETRY (R166). -/
theorem Part.telegram_leaves (p : Part) (f : Frame) (act : Part → Part) (hw : p.WaitingIn W)
    (h : ∀ q : Part, q.Keeps Scope.wide (act q)) :
    p.Leaves W ((act p.dropCrane.await).onLink (Link.pushTelemetry f)) :=
  (p.dropCrane_await_leaves hw).trans ((h _).trans (Part.toTelemetry_keeps _ f)).leaves

theorem Part.positionFrame_leaves (p : Part) (h : p.WaitingIn W) : p.Leaves W p.positionFrame := by
  unfold Part.positionFrame
  split
  · exact .refl p
  · split
    · exact p.telegram_leaves _ _ h fun q => q.positionTelegram_keeps _ _ _ trivial
    · exact .refl p

theorem Part.loadFrame_leaves (p : Part) (h : p.WaitingIn W) : p.Leaves W p.loadFrame := by
  unfold Part.loadFrame
  split
  · exact .refl p
  · split
    · exact p.telegram_leaves _ _ h fun q => q.loadTelegram_keeps _ _ _
    · exact .refl p

theorem Part.doneFrame_leaves (p : Part) (h : p.WaitingIn W) : p.Leaves W p.doneFrame := by
  unfold Part.doneFrame
  split
  · exact .refl p
  · split
    · exact p.telegram_leaves _ _ h fun q => q.takeDone_keeps _ _
    · exact .refl p

theorem Part.bayReportFrame_leaves (p : Part) (h : p.WaitingIn W) : p.Leaves W p.bayReportFrame := by
  unfold Part.bayReportFrame
  split
  · exact .refl p
  · split
    · exact (p.dropCrane_await_leaves h).trans (Part.bayReport_keeps (S := Scope.wide) _ _ _ trivial).leaves
    · exact .refl p

theorem Part.expireReservation_leaves (p : Part) (i : Nat) : p.Leaves W (p.expireReservation i) := by
  unfold Part.expireReservation
  split
  · exact .refl p
  · exact Part.leaves_ite _ (fun _ => (serveReservationExpiry_keeps (S := Scope.wide) i p).leaves)
      fun _ => (p.queueTask_keeps (S := Scope.wide) _).leaves

theorem Part.expireDwell_leaves (p : Part) (h : p.WaitingIn W) : p.Leaves W p.expireDwell :=
  p.whenDue_leaves _ _ h fun q _ => by
    cases q.bays.scan with
    | none => exact .refl q
    | some sc => exact q.endDwell_keeps sc trivial

theorem Part.serveRequest_leaves (p : Part) (h : p.WaitingIn W) : p.Leaves W p.serveRequest := by
  unfold Part.serveRequest
  split
  · exact .refl p
  · exact .refl p
  · exact p.serveNext_leaves h

theorem Part.finishSearch_leaves (p : Part) (h : p.WaitingIn W) : p.Leaves W p.finishSearch := by
  unfold Part.finishSearch
  split
  · exact p.serveNext_leaves h
  · exact .refl p

theorem serveStopRelease_leaves (f : Frame) (p : Part) : p.Leaves W (serveStopRelease f p) := by
  unfold serveStopRelease
  split
  · exact (p.refuse_keeps (S := Scope.wide) _ _ _).leaves
  · split
    · exact (p.refuse_keeps (S := Scope.wide) _ _ _).leaves
    · next c _ =>
      exact ((p.releaseStop_keeps c (S := Scope.dropping c) rfl trivial).trans (Part.ok_keeps _ _ _)).leaves

/-! ## Commands -/

/-- What a command may write: its own table, and, while requests wait at the slot map, the tables that those write. -/
def Part.writesOf (p : Part) (i : Instr) : Writes where
  entries := i = .tableWriteCrane
  zones := i = .tableWriteZone
  entryPoints := i = .tableWriteEntry
  blocks := i = .tableWriteBlock ∨ p.slots.requests ≠ []
  geometry := i = .tableWriteSlotGeometry ∨ p.slots.requests ≠ []
  routing := i = .tableWriteGroupMap ∨ p.slots.requests ≠ []
  bays := i = .tableWriteBay
  params := i = .tableWriteParameters ∨ p.slots.requests ≠ []
  mode := i = .modeRun ∨ i = .modeMaintenance ∨ i = .restart

theorem Part.writesOf_waiting (p : Part) (i : Instr) : p.WaitingIn (p.writesOf i) :=
  fun h => ⟨.inr h, .inr h, .inr h, .inr h⟩

theorem State.act_leaves {f : Part → Part} {s t : State} (h : s.act f = .next t) (hf : s.part.Leaves W (f s.part)) :
    s.part.Leaves W t.part := by
  cases h
  split
  · exact .refl _
  · exact hf

theorem exec_leaves {i : Instr} {s t : State} (hi : startsPart i = false) (h : exec i s = .next t) :
    s.part.Leaves (s.part.writesOf i) t.part := by
  have hw := s.part.writesOf_waiting i
  cases i with
  | powerOn => cases hi
  | resetLineAsserted => cases hi
  | resetLineReleased => cases hi
  | frameReceived port line => exact State.act_leaves (f := fun p => p.receive port line) h (Part.receive_keeps (S := Scope.wide) _ port line).leaves
  | interByteGap port next =>
    exact State.act_leaves (f := fun p => p.onPort port fun r => r.gap next) h (Part.onPort_keeps (S := Scope.wide) _ port _ fun r => r.gap_within next).leaves
  | supervisorFrameForward => exact State.act_leaves h (Part.forwardSup_keeps (S := Scope.wide) _).leaves
  | craneFrameForward => exact State.act_leaves h (Part.forwardCrane_keeps (S := Scope.wide) _).leaves
  | frameSent port => exact State.act_leaves (f := fun p => p.frameSent port) h (Part.frameSent_keeps (S := Scope.wide) _ port).leaves
  | replyEntryGrant => exact State.act_leaves h (Part.grantReply_keeps (S := Scope.wide) _).leaves
  | pendingCommandQueued => exact State.act_leaves h (Part.whenDue_leaves _ _ _ hw fun q => q.takePending_keeps)
  | position => exact State.act_leaves h (Part.positionFrame_leaves _ hw)
  | load => exact State.act_leaves h (Part.loadFrame_leaves _ hw)
  | done => exact State.act_leaves h (Part.doneFrame_leaves _ hw)
  | bayReport => exact State.act_leaves h (Part.bayReportFrame_leaves _ hw)
  | goto => exact State.act_leaves h (Part.orderFrame_leaves _ _ _ hw)
  | pick => exact State.act_leaves h (Part.orderFrame_leaves _ _ _ hw)
  | place => exact State.act_leaves h (Part.orderFrame_leaves _ _ _ hw)
  | park => exact State.act_leaves h (Part.orderFrame_leaves _ _ _ hw)
  | halt => exact State.act_leaves h (Part.haltFrame_leaves _ hw)
  | broadcastHalt => exact State.act_leaves h (Part.broadcastHaltFrame_leaves _ hw)
  | staleExpiry c => exact State.act_leaves (f := fun p => p.expireStale c) h (Part.whenDue_leaves _ _ _ hw fun q _ => q.becomeStale_keeps c trivial)
  | holdExpiry k => exact State.act_leaves (f := fun p => p.expireHoldOf k.val) h (Part.whenDue_leaves _ _ _ hw fun q _ => q.expireHold_keeps k)
  | reservationExpiry i => exact State.act_leaves (f := fun p => p.expireReservation i) h (Part.expireReservation_leaves _ i)
  | weighExpiry c => exact State.act_leaves (f := fun p => p.expireWeigh c) h (Part.whenDue_leaves _ _ _ hw fun q _ => q.weighUnsettled_keeps c)
  | reArmExpiry b => exact State.act_leaves (f := fun p => p.expireRearm b) h (Part.whenDue_leaves _ _ _ hw fun q _ => q.rearm_keeps b)
  | flashTimerExpiry b =>
    exact State.act_leaves h (Part.leaves_ite _ (fun _ => (Part.flash_keeps (S := Scope.wide) _ b).leaves) fun _ => .refl _)
  | dwellEnd => exact State.act_leaves h (Part.expireDwell_leaves _ hw)
  | filterSample levels =>
    exact State.act_leaves (f := fun p => p.sampleInputs levels) h (Part.whenDue_leaves _ _ _ hw fun q _ => q.takeSamples_keeps levels trivial)
  | inputLevelAccepted n =>
    exact State.act_leaves (f := fun p => p.inputAccepted n) h (Part.whenDue_leaves _ _ _ hw fun q _ => q.acceptLevel_keeps n trivial)
  | checkDelayEnd n => exact State.act_leaves (f := fun p => p.endDelay n) h (Part.endDelay_keeps (S := Scope.wide) _ n).leaves
  | allocate => exact State.act_leaves h (Part.allocateFrame_leaves _)
  | allocationSearch =>
    exact State.act_leaves h
      (Part.leaves_ite _ (fun _ => (Part.startSearch_keeps (S := Scope.wide) _).leaves) fun _ => .refl _)
  | allocationSearchComplete => exact State.act_leaves h (Part.finishSearch_leaves _ hw)
  | slotMapRequestServed => exact State.act_leaves h (Part.serveRequest_leaves _ hw)
  | tableWriteCrane =>
    exact State.act_leaves h (Part.manage_await_leaves _ _ _ _ hw fun f q => serveCraneTable_leaves f q rfl)
  | tableWriteZone => exact State.act_leaves h (Part.manage_leaves _ _ _ _ fun f => serveZoneTable_leaves f _ rfl)
  | tableWriteEntry => exact State.act_leaves h (Part.manage_leaves _ _ _ _ fun f => serveEntryTable_leaves f _ rfl)
  | tableWriteBlock =>
    exact State.act_leaves h (Part.manageSlots_leaves _ _ _ _ fun f => serveBlockTable_leaves f _ (.inl rfl))
  | tableWriteSlotGeometry =>
    exact State.act_leaves h (Part.manageSlots_leaves _ _ _ _ fun f => serveGeometryTable_leaves f _ (.inl rfl))
  | tableWriteGroupMap =>
    exact State.act_leaves h (Part.manageSlots_leaves _ _ _ _ fun f => serveGroupMap_leaves f _ (.inl rfl))
  | tableWriteCalibration =>
    exact State.act_leaves h (Part.manage_leaves _ _ _ _ fun f =>
      serveTable_leaves _ f _ fun n es => (serveCalibration_keeps (S := Scope.wide) f n es _).leaves)
  | tableWriteBay =>
    exact State.act_leaves h (Part.manage_await_leaves _ _ _ _ hw fun f q => serveBayTable_leaves f q rfl)
  | tableWriteParameters => exact State.act_leaves h (Part.parameterFrame_leaves _ (.inl rfl))
  | tableRead => exact State.act_leaves h (Part.tableReadFrame_leaves _)
  | queryCrane =>
    exact State.act_leaves h (Part.manage_keeps_leaves _ _ _ (fun f q => serveQueryCrane_keeps f q trivial) _)
  | queryZone => exact State.act_leaves h (Part.manage_keeps_leaves _ _ _ serveQueryZone_keeps _)
  | querySlot => exact State.act_leaves h (Part.manageSlots_keeps_leaves _ _ _ serveQuerySlot_keeps _)
  | queryBlockSums => exact State.act_leaves h (Part.manageSlots_keeps_leaves _ _ _ serveQueryBlockSums_keeps _)
  | queryHook => exact State.act_leaves h (Part.manage_keeps_leaves _ _ _ serveQueryHook_keeps _)
  | queryBay => exact State.act_leaves h (Part.manage_keeps_leaves _ _ _ (fun f q => serveQueryBay_keeps f q trivial) _)
  | queryLink => exact State.act_leaves h (Part.manage_keeps_leaves _ _ _ serveQueryLink_keeps _)
  | queryPart => exact State.act_leaves h (Part.manage_keeps_leaves _ _ _ serveQueryPart_keeps _)
  | querySummary => exact State.act_leaves h (Part.manage_keeps_leaves _ _ _ serveQuerySummary_keeps _)
  | reserve => exact State.act_leaves h (Part.manageSlots_keeps_leaves _ _ _ serveReserve_keeps _)
  | unreserve => exact State.act_leaves h (Part.manageSlots_keeps_leaves _ _ _ serveUnreserve_keeps _)
  | slotSet => exact State.act_leaves h (Part.manageSlots_keeps_leaves _ _ _ serveSlotSet_keeps _)
  | planLoad =>
    exact State.act_leaves h
      (Part.manage_await_leaves _ _ _ _ hw fun f q => (servePlanLoad_keeps (S := Scope.wide) f q).leaves)
  | planClear =>
    exact State.act_leaves h
      (Part.manage_await_leaves _ _ _ _ hw fun f q => (servePlanClear_keeps (S := Scope.wide) f q).leaves)
  | bayAck =>
    exact State.act_leaves h
      (Part.manage_await_leaves _ _ _ _ hw fun f q => (serveBayAck_keeps (S := Scope.wide) f q).leaves)
  | hold => exact State.act_leaves h (Part.manage_keeps_leaves _ _ _ serveHold_keeps _)
  | unhold =>
    exact State.act_leaves h
      (Part.manage_await_leaves _ _ _ _ hw fun f q => (serveUnhold_keeps (S := Scope.wide) f q).leaves)
  | block =>
    exact State.act_leaves h
      (Part.manage_await_leaves _ _ _ _ hw fun f q => (serveBlock_keeps (S := Scope.wide) f q).leaves)
  | unblock => exact State.act_leaves h (Part.manage_keeps_leaves _ _ _ serveUnblock_keeps _)
  | stopRelease => exact State.act_leaves h (Part.manage_await_leaves _ _ _ _ hw fun f q => serveStopRelease_leaves f q)
  | modeRun => exact State.act_leaves h (Part.manage_await_leaves _ _ _ _ hw fun f q => serveMode_leaves f q (.inl rfl))
  | modeMaintenance =>
    exact State.act_leaves h (Part.manage_await_leaves _ _ _ _ hw fun f q => serveMode_leaves f q (.inr (.inl rfl)))
  | restart =>
    exact State.act_leaves h (Part.manage_leaves _ _ _ _ fun f =>
      (Part.settle_leaves (p := s.part.dropSup) hw).trans (serveRestart_leaves f _ (.inr (.inr rfl))))
  | frameLengthAbove60 port length =>
    exact State.act_leaves
      (f := fun p => p.onPort port fun r =>
        if r.expectsLength && decide (Config.maxPayload < length.toNat) then r.feed length else r) h
      (Part.onPort_keeps (S := Scope.wide) _ port _ fun r => Port.feed_ite_within length _ r).leaves

/-- Settles O4: each clause is the field of `Part.Leaves` for its table, whose exception the clause rules out. -/
theorem tablesChangeOnlyByTheirCommands : Obligations.TablesChangeOnlyByTheirCommands := by
  intro c s t h hi
  have hl := exec_leaves hi h
  have quiet {w : Prop} (hw : ¬ w) (hq : s.Quiet) : ¬ (w ∨ s.part.slots.requests ≠ []) := fun e =>
    e.elim hw fun hne => hne hq
  exact ⟨hl.entries.resolve_left, hl.zones.resolve_left, hl.entryPoints.resolve_left,
    fun hc hq => hl.blocks.resolve_left (quiet hc hq), fun hc hq => hl.geometry.resolve_left (quiet hc hq),
    fun hc hq => hl.routing.resolve_left (quiet hc hq), hl.bays.resolve_left,
    fun hc hq => hl.params.resolve_left (quiet hc hq),
    fun hr hm hs => hl.mode.resolve_left fun e => e.elim hr fun e => e.elim hm hs, hl.clock, hl.station⟩

end Sys2Proof.Machine
end

section
/-! The commands as operations on the part: `exec` unfolded once for each. -/

namespace Sys2Proof.Machine

theorem exec_frameReceived (s : State) (port : PortId) (line : List Byte) :
    exec (.frameReceived port line) s = s.act fun p => p.receive port line := rfl

theorem exec_interByteGap (s : State) (port : PortId) (next : Byte) :
    exec (.interByteGap port next) s = s.act fun p => p.onPort port fun r => r.gap next := rfl

theorem exec_supervisorFrameForward (s : State) : exec .supervisorFrameForward s = s.act fun p => p.forwardSup := rfl

theorem exec_craneFrameForward (s : State) : exec .craneFrameForward s = s.act fun p => p.forwardCrane := rfl

theorem exec_frameSent (s : State) (port : PortId) : exec (.frameSent port) s = s.act fun p => p.frameSent port := rfl

theorem exec_replyEntryGrant (s : State) : exec .replyEntryGrant s = s.act fun p => p.grantReply := rfl

theorem exec_pendingCommandQueued (s : State) : exec .pendingCommandQueued s = s.act fun p => p.queuePending := rfl

theorem exec_position (s : State) : exec .position s = s.act fun p => p.positionFrame := rfl

theorem exec_load (s : State) : exec .load s = s.act fun p => p.loadFrame := rfl

theorem exec_done (s : State) : exec .done s = s.act fun p => p.doneFrame := rfl

theorem exec_bayReport (s : State) : exec .bayReport s = s.act fun p => p.bayReportFrame := rfl

theorem exec_goto (s : State) : exec .goto s = s.act fun p => p.orderFrame .goto .goto := rfl

theorem exec_pick (s : State) : exec .pick s = s.act fun p => p.orderFrame .pick .pick := rfl

theorem exec_place (s : State) : exec .place s = s.act fun p => p.orderFrame .place .place := rfl

theorem exec_park (s : State) : exec .park s = s.act fun p => p.orderFrame .park .park := rfl

theorem exec_halt (s : State) : exec .halt s = s.act fun p => p.haltFrame := rfl

theorem exec_broadcastHalt (s : State) : exec .broadcastHalt s = s.act fun p => p.broadcastHaltFrame := rfl

theorem exec_staleExpiry (s : State) (crane : Fin 4) :
    exec (.staleExpiry crane) s = s.act fun p => p.expireStale crane := rfl

theorem exec_holdExpiry (s : State) (zone : Fin 32) :
    exec (.holdExpiry zone) s = s.act fun p => p.expireHoldOf zone.val := rfl

theorem exec_reservationExpiry (s : State) (slot : Nat) :
    exec (.reservationExpiry slot) s = s.act fun p => p.expireReservation slot := rfl

theorem exec_weighExpiry (s : State) (crane : Fin 4) :
    exec (.weighExpiry crane) s = s.act fun p => p.expireWeigh crane := rfl

theorem exec_reArmExpiry (s : State) (bay : Fin 6) : exec (.reArmExpiry bay) s = s.act fun p => p.expireRearm bay := rfl

theorem exec_flashTimerExpiry (s : State) (bay : Fin 6) :
    exec (.flashTimerExpiry bay) s = s.act fun p => p.expireFlash bay := rfl

theorem exec_dwellEnd (s : State) : exec .dwellEnd s = s.act fun p => p.expireDwell := rfl

theorem exec_filterSample (s : State) (levels : Samples) :
    exec (.filterSample levels) s = s.act fun p => p.sampleInputs levels := rfl

theorem exec_inputLevelAccepted (s : State) (line : Nat) :
    exec (.inputLevelAccepted line) s = s.act fun p => p.inputAccepted line := rfl

theorem exec_checkDelayEnd (s : State) (line : Nat) : exec (.checkDelayEnd line) s = s.act fun p => p.endDelay line := rfl

theorem exec_allocate (s : State) : exec .allocate s = s.act fun p => p.allocateFrame := rfl

theorem exec_allocationSearch (s : State) :
    exec .allocationSearch s = s.act fun p => if p.searchDue then p.startSearch else p := rfl

theorem exec_allocationSearchComplete (s : State) : exec .allocationSearchComplete s = s.act fun p => p.finishSearch := rfl

theorem exec_slotMapRequestServed (s : State) : exec .slotMapRequestServed s = s.act fun p => p.serveRequest := rfl

theorem exec_tableWriteCrane (s : State) :
    exec .tableWriteCrane s = s.act fun p => p.manage .tableWrite (namesTable 1) fun f p => serveCraneTable f p.await := rfl

theorem exec_tableWriteZone (s : State) :
    exec .tableWriteZone s = s.act fun p => p.manage .tableWrite (namesTable 2) serveZoneTable := rfl

theorem exec_tableWriteEntry (s : State) :
    exec .tableWriteEntry s = s.act fun p => p.manage .tableWrite (namesTable 3) serveEntryTable := rfl

theorem exec_tableWriteBlock (s : State) :
    exec .tableWriteBlock s = s.act fun p => p.manageSlots .tableWrite (namesTable 4) serveBlockTable := rfl

theorem exec_tableWriteSlotGeometry (s : State) :
    exec .tableWriteSlotGeometry s = s.act fun p => p.manageSlots .tableWrite (namesTable 5) serveGeometryTable := rfl

theorem exec_tableWriteGroupMap (s : State) :
    exec .tableWriteGroupMap s = s.act fun p => p.manageSlots .tableWrite (namesTable 6) serveGroupMap := rfl

theorem exec_tableWriteCalibration (s : State) :
    exec .tableWriteCalibration s = s.act fun p => p.manage .tableWrite (namesTable 7) serveCalibration := rfl

theorem exec_tableWriteBay (s : State) :
    exec .tableWriteBay s = s.act fun p => p.manage .tableWrite (namesTable 8) fun f p => serveBayTable f p.await := rfl

theorem exec_tableWriteParameters (s : State) : exec .tableWriteParameters s = s.act fun p => p.parameterFrame := rfl

theorem exec_tableRead (s : State) : exec .tableRead s = s.act fun p => p.tableReadFrame := rfl

theorem exec_queryCrane (s : State) :
    exec .queryCrane s = s.act fun p => p.manage .query (namesQuery 1) serveQueryCrane := rfl

theorem exec_queryZone (s : State) : exec .queryZone s = s.act fun p => p.manage .query (namesQuery 2) serveQueryZone := rfl

theorem exec_querySlot (s : State) :
    exec .querySlot s = s.act fun p => p.manageSlots .query (namesQuery 3) serveQuerySlot := rfl

theorem exec_queryBlockSums (s : State) :
    exec .queryBlockSums s = s.act fun p => p.manageSlots .query (namesQuery 4) serveQueryBlockSums := rfl

theorem exec_queryHook (s : State) : exec .queryHook s = s.act fun p => p.manage .query (namesQuery 5) serveQueryHook := rfl

theorem exec_queryBay (s : State) : exec .queryBay s = s.act fun p => p.manage .query (namesQuery 6) serveQueryBay := rfl

theorem exec_queryLink (s : State) : exec .queryLink s = s.act fun p => p.manage .query (namesQuery 7) serveQueryLink := rfl

theorem exec_queryPart (s : State) : exec .queryPart s = s.act fun p => p.manage .query namesPart serveQueryPart := rfl

theorem exec_querySummary (s : State) :
    exec .querySummary s = s.act fun p => p.manage .query (namesQuery 9) serveQuerySummary := rfl

theorem exec_reserve (s : State) : exec .reserve s = s.act fun p => p.manageSlots .reserve anyForm serveReserve := rfl

theorem exec_unreserve (s : State) :
    exec .unreserve s = s.act fun p => p.manageSlots .unreserve anyForm serveUnreserve := rfl

theorem exec_slotSet (s : State) : exec .slotSet s = s.act fun p => p.manageSlots .slotSet anyForm serveSlotSet := rfl

theorem exec_planLoad (s : State) :
    exec .planLoad s = s.act fun p => p.manage .planLoad anyForm fun f p => servePlanLoad f p.await := rfl

theorem exec_planClear (s : State) :
    exec .planClear s = s.act fun p => p.manage .planClear anyForm fun f p => servePlanClear f p.await := rfl

theorem exec_bayAck (s : State) :
    exec .bayAck s = s.act fun p => p.manage .bayAck anyForm fun f p => serveBayAck f p.await := rfl

theorem exec_hold (s : State) : exec .hold s = s.act fun p => p.manage .hold anyForm serveHold := rfl

theorem exec_unhold (s : State) :
    exec .unhold s = s.act fun p => p.manage .unhold anyForm fun f p => serveUnhold f p.await := rfl

theorem exec_block (s : State) :
    exec .block s = s.act fun p => p.manage .block anyForm fun f p => serveBlock f p.await := rfl

theorem exec_unblock (s : State) : exec .unblock s = s.act fun p => p.manage .unblock anyForm serveUnblock := rfl

theorem exec_stopRelease (s : State) :
    exec .stopRelease s = s.act fun p => p.manage .stopRelease anyForm fun f p => serveStopRelease f p.await := rfl

theorem exec_modeRun (s : State) :
    exec .modeRun s = s.act fun p => p.manage .mode asksOther fun f p => serveMode f p.await := rfl

theorem exec_modeMaintenance (s : State) :
    exec .modeMaintenance s = s.act fun p => p.manage .mode asksMaintenance fun f p => serveMode f p.await := rfl

theorem exec_restart (s : State) :
    exec .restart s = s.act fun p => p.manage .restart anyForm fun f p => serveRestart f p.settle := rfl

theorem exec_frameLengthAbove60 (s : State) (port : PortId) (length : Byte) :
    exec (.frameLengthAbove60 port length) s = s.act fun p => p.onPort port fun r =>
      if r.expectsLength && decide (Config.maxPayload < length.toNat) then r.feed length else r := rfl

/-- What an operation makes of a part that is not held in reset (R192). -/
theorem State.act_eq {s : State} {f : Part → Part} {q : Part} (h : s.part.inReset = false) (hf : f s.part = q) :
    s.act f = .next (s.withPart q) := by
  rw [State.act_run s f h, hf]

/-- An operation that changes nothing. -/
theorem State.act_eq_self {s : State} {f : Part → Part} (h : s.part.inReset = false) (hf : f s.part = s.part) :
    s.act f = .next s := State.act_eq h hf

end Sys2Proof.Machine
end

section
/-! One step of the machine, its state after reset, and the start of the part (R192). -/

namespace Sys2Proof.Machine

/-! ## The step -/

theorem step_cons {s : State} {c : Instr} {rest : List Instr} (h : s.pending = c :: rest) :
    step s = exec c { s with pending := rest } := by
  unfold step
  rw [h]

theorem step_nil {s : State} (h : s.pending = []) : step s = .next s.idle := by
  unfold step
  rw [h]

theorem State.idle_of_reset {s : State} (hr : s.part.inReset = true) : s.idle = s := by
  simp [State.idle, hr]

theorem State.idle_of_due {s : State} {c : Instr} (hr : s.part.inReset = false) (hd : s.part.due = some c) :
    s.idle = { s with pending := [c] } := by
  simp [State.idle, hr, hd]

theorem State.idle_of_none {s : State} (hr : s.part.inReset = false) (hd : s.part.due = none) :
    s.idle = ⟨s.part.tick, s.part.endings⟩ := by
  simp [State.idle, hr, hd]

/-- Settles O1: the queue's front and the three cases of the idle step. -/
theorem stepRunsTheFrontCommand : Obligations.StepRunsTheFrontCommand := by
  refine ⟨fun s c rest h => step_cons h, fun s h hr => ?reset, fun s c h hr hd => ?due, fun s h hr hd => ?tick⟩
  case reset => rw [step_nil h, State.idle_of_reset hr]
  case due => rw [step_nil h, State.idle_of_due hr hd]
  case tick => rw [step_nil h, State.idle_of_none hr hd]; rfl

/-! ## The state after reset -/

/-- Settles O2: the values are read off `Part.reset`, and the laws are those of any reset part. -/
theorem resetState : Obligations.ResetState := by
  unfold Obligations.ResetState
  refine ⟨rfl, rfl, rfl, rfl, rfl, rfl, rfl, rfl, rfl, rfl, rfl, rfl, rfl, rfl, rfl, by decide, rfl, rfl, by decide, by decide, rfl,
    by decide, rfl, rfl, rfl, rfl, rfl, rfl, by decide, Part.reset_urgentUnique _, Part.reset_stopLinesFollow _,
    Part.reset_slotsSorted _, Part.reset_withinCapacity _⟩

/-! ## The start (R192) -/

/-- On an idle link the first frame of the part is in transmission at once (R169). -/
theorem Part.reset_notify (station : Byte) (k : NoticeKind) (a b c d : Nat) :
    (Part.reset station).notify k a b c d = (Part.reset station).onLink fun l =>
      { l with seq := 1, sup := { Port.reset with
        tx := some (ownFrame station 0 .notice 0 (Notice.payload ⟨k, 0, a, b, c, d⟩)) } } := rfl

/-- Every command but a start is an operation on the part. -/
theorem exec_eq_act {c : Instr} (hi : startsPart c = false) : ∃ f : Part → Part, ∀ s : State, exec c s = s.act f := by
  cases c with
  | powerOn => cases hi
  | resetLineAsserted => cases hi
  | resetLineReleased => cases hi
  | frameReceived port line => exact ⟨_, fun s => exec_frameReceived s port line⟩
  | interByteGap port next => exact ⟨_, fun s => exec_interByteGap s port next⟩
  | frameSent port => exact ⟨_, fun s => exec_frameSent s port⟩
  | staleExpiry c => exact ⟨_, fun s => exec_staleExpiry s c⟩
  | holdExpiry k => exact ⟨_, fun s => exec_holdExpiry s k⟩
  | reservationExpiry i => exact ⟨_, fun s => exec_reservationExpiry s i⟩
  | weighExpiry c => exact ⟨_, fun s => exec_weighExpiry s c⟩
  | reArmExpiry b => exact ⟨_, fun s => exec_reArmExpiry s b⟩
  | flashTimerExpiry b => exact ⟨_, fun s => exec_flashTimerExpiry s b⟩
  | filterSample levels => exact ⟨_, fun s => exec_filterSample s levels⟩
  | inputLevelAccepted n => exact ⟨_, fun s => exec_inputLevelAccepted s n⟩
  | checkDelayEnd n => exact ⟨_, fun s => exec_checkDelayEnd s n⟩
  | allocationSearch => exact ⟨_, exec_allocationSearch⟩
  | frameLengthAbove60 port length => exact ⟨_, fun s => exec_frameLengthAbove60 s port length⟩
  | _ => exact ⟨_, fun _ => rfl⟩

theorem exec_of_reset {s : State} {c : Instr} (hi : startsPart c = false) (hr : s.part.inReset = true) :
    exec c s = .next s := by
  obtain ⟨f, hf⟩ := exec_eq_act hi
  rw [hf, State.act_reset s f hr]

/-- Settles O6. -/
theorem startAndResetLine : Obligations.StartAndResetLine := by
  intro s
  refine ⟨fun straps => ⟨?powerOn, fun hr => ?released, fun hr => ?inactive⟩, rfl, fun c => exec_of_reset⟩
  case powerOn =>
    exact congrArg (fun p => Host.Outcome.next (s.withPart p)) (Part.reset_notify _ _ _ _ _ _)
  case released =>
    have h : exec (.resetLineReleased straps) s = .next (s.withPart (startPart straps 4)) := by
      simp [exec, execResetLineReleased, hr, State.withPart]
    rw [h]
    exact congrArg (fun p => Host.Outcome.next (s.withPart p)) (Part.reset_notify _ _ _ _ _ _)
  case inactive => simp [exec, execResetLineReleased, hr]

end Sys2Proof.Machine
end

section
/-! Fields of payloads, low byte first (R167): what is read back from bytes written one field after another. -/

namespace Sys2Proof.Machine

@[simp] theorem le_length (k v : Nat) : (le k v).length = k := by
  induction k generalizing v with
  | zero => rfl
  | succ k ih => simp [le, ih]

/-- Bytes written as a number are read back as the number, less what the bytes do not hold. -/
theorem leNat_le (k v : Nat) : leNat (le k v) = v % 256 ^ k := by
  induction k generalizing v with
  | zero => simp [le, leNat, Nat.mod_one]
  | succ k ih =>
    rw [le, leNat, ih, BitVec.toNat_ofNat, pow_succ' 256 k, Nat.mod_mul]

theorem field_zero_of_length {p : List Byte} {n : Nat} (h : p.length = n) (q : List Byte) : field (p ++ q) 0 n = leNat p := by
  simp [field, ← h]

/-- The field that stands first. -/
@[simp] theorem field_le_append (k v : Nat) (q : List Byte) : field (le k v ++ q) 0 k = v % 256 ^ k := by
  rw [field_zero_of_length (le_length k v), leNat_le]

@[simp] theorem field_le (k v : Nat) : field (le k v) 0 k = v % 256 ^ k := by
  rw [← List.append_nil (le k v), field_le_append]

theorem field_append_of_le {p : List Byte} {off : Nat} (h : p.length ≤ off) (q : List Byte) (len : Nat) :
    field (p ++ q) off len = field q (off - p.length) len := by
  unfold field
  rw [List.drop_append, List.drop_of_length_le h, List.nil_append]

/-- A field that stands further on. -/
theorem field_skip {k off : Nat} (h : k ≤ off) (v : Nat) (q : List Byte) (len : Nat) :
    field (le k v ++ q) off len = field q (off - k) len := by
  rw [field_append_of_le (by simpa using h), le_length]

/-- A byte at a place. -/
theorem field_one {p : List Byte} {i : Nat} (h : i < p.length) : field p i 1 = p[i].toNat := by
  rw [field, List.drop_eq_getElem_cons h, List.take_succ_cons, List.take_zero, leNat, leNat, Nat.mul_zero, Nat.add_zero]

/-- A field reads no further than its bytes. -/
theorem field_append_left {p : List Byte} {off len : Nat} (h : off + len ≤ p.length) (q : List Byte) :
    field (p ++ q) off len = field p off len := by
  unfold field
  rw [List.drop_append_of_le_length (by omega), List.take_append_of_le_length (by rw [List.length_drop]; omega)]

theorem leNat_lt (p : List Byte) : leNat p < 256 ^ p.length := by
  induction p with
  | nil => simp [leNat]
  | cons b bs ih =>
    have hb : b.toNat < 256 := b.isLt
    simp only [leNat, List.length_cons, pow_succ]
    omega

/-- A yes/no byte is read by its bit 0 (log 7). -/
theorem flag_bit (b : Bool) (q : List Byte) : flag (le 1 (bit 0 b) ++ q) 0 0 = b := by
  cases b <;> simp [flag, bit]

end Sys2Proof.Machine
end

section
/-! The layouts of the nine tables: an entry written as a TABLE_READ returns it is read back (R178, R179, log 7). -/

namespace Sys2Proof.Machine

theorem flag_skip {k off : Nat} (h : k ≤ off) (v : Nat) (q : List Byte) (n : Nat) :
    flag (le k v ++ q) off n = flag q (off - k) n := by
  rw [flag, flag, field_skip h]

/-! ## Entries in range -/

theorem parseCraneEntry_bytes (e : CraneEntry) (he : e.inRange = true) (hy : e.yMax < 65536) (hpark : e.parkY < 65536)
    (htong : e.tong < 65536) : parseCraneEntry e.bytes = some e := by
  simp only [CraneEntry.inRange, Bool.and_eq_true, decide_eq_true_eq] at he
  have hcls : readClass (e.dflt.code % 256 ^ 1) = some (some e.dflt) := by cases e.dflt <;> rfl
  simp only [parseCraneEntry, CraneEntry.bytes, List.append_assoc, field_skip, flag_skip, field_le_append, flag_bit, field_le,
    Nat.reduceLeDiff, Nat.reduceSub, hcls]
  simp (disch := omega) only [Nat.reducePow, Nat.mod_eq_of_lt]

theorem readCraneEntry_bytes (i : Fin 4) (e : CraneEntry) (he : e.inRange = true) (hy : e.yMax < 65536)
    (hpark : e.parkY < 65536) (htong : e.tong < 65536) : readCraneEntry i.val e.bytes = some e := by
  simp [readCraneEntry, parseCraneEntry_bytes e he hy hpark htong, he]

theorem readZoneEntry_bytes (i : Fin 32) (e : ZoneEntry) (hs : e.start ≤ 262143) (hc : e.cap ≤ 4095) :
    readZoneEntry i.val e.bytes = some e := by
  obtain ⟨d, s, c, l, b⟩ := e
  have hlast : ∀ b : Option (Fin 6), ∀ l : Bool, bit 0 l + 2 * b.elim 127 Fin.val < 256
      ∧ ((bit 0 l + 2 * b.elim 127 Fin.val) / 2 < 6 ∨ (bit 0 l + 2 * b.elim 127 Fin.val) / 2 = 127)
      ∧ (bit 0 l + 2 * b.elim 127 Fin.val).testBit 0 = l
      ∧ bayOf ((bit 0 l + 2 * b.elim 127 Fin.val) / 2) = b := by decide
  obtain ⟨hbyte, hbay, hbit, hof⟩ := hlast b l
  simp only at hs hc
  have hflag : flag (le 1 (bit 0 l + 2 * b.elim 127 Fin.val)) 0 0 = l := by
    rw [flag, field_le, Nat.mod_eq_of_lt (by simpa using hbyte), hbit]
  simp only [readZoneEntry, ZoneEntry.bytes, List.append_assoc, field_skip, flag_skip, field_le_append, flag_bit, field_le,
    hflag, Nat.reduceLeDiff, Nat.reduceSub]
  simp (disch := omega) only [Nat.reducePow, Nat.mod_eq_of_lt, hof, hbay, i.isLt, hs, hc, and_self, if_true]

theorem readEntryPoint_bytes (i : Fin 4) (e : EntryPoint) (hx : e.x ≤ 262143) (hy : e.y < 65536) (hz : e.z ≤ 16383) :
    readEntryPoint i.val e.bytes = some e := by
  simp only [readEntryPoint, EntryPoint.bytes, List.append_assoc, field_skip, field_le_append, flag_bit, field_le,
    Nat.reduceLeDiff, Nat.reduceSub]
  simp (disch := omega) only [Nat.reducePow, Nat.mod_eq_of_lt, i.isLt, hx, hz, and_self, if_true]

theorem readBlock_bytes (i : Fin 8) (b : Block) (hl : b.limit < 2 ^ 32) (hc : b.cost < 256) (ho : b.overhang ≤ 2000) :
    readBlock i.val b.bytes = some (i, b) := by
  simp only [readBlock, Block.bytes, List.append_assoc, field_skip, field_le_append, flag_bit, field_le,
    Nat.reduceLeDiff, Nat.reduceSub]
  simp (disch := omega) only [Nat.reducePow, Nat.mod_eq_of_lt, i.isLt, ho, dite_true, if_true]

theorem readGeometry_bytes_none (i : Nat) (h : i < 1536) : readGeometry (geometryBytes i none) = some (i, none) := by
  have hflag : flag (le 19 0) 0 0 = false := by decide
  simp only [readGeometry, geometryBytes, field_le_append, flag_skip, hflag, Nat.reduceLeDiff, Nat.reduceSub]
  simp (disch := omega) only [Nat.reducePow, Nat.mod_eq_of_lt]
  simp [h]

theorem readGeometry_bytes_some (i : Nat) (g : Geometry) (hi : i < 1536) (hrow : g.row ≤ 15) (ha : g.tier.supports.1 < 1536)
    (hb : g.tier.supports.2 < 1536) (hx : g.x ≤ 262143) (hy : g.y < 65536) (hz : g.z ≤ 16383) (hd1 : 1 ≤ g.maxDiameter)
    (hd : g.maxDiameter < 65536) (hw1 : 1 ≤ g.maxWidth) (hw : g.maxWidth < 65536) :
    readGeometry (geometryBytes i (some g)) = some (i, some g) := by
  obtain ⟨b, row, tier, x, y, z, d, w⟩ := g
  simp only at *
  have hone : ∀ q, flag (le 1 1 ++ q) 0 0 = true := flag_bit true
  have hblock := b.isLt
  cases tier with
  | floor =>
    simp only [readGeometry, readTier, geometryBytes, List.append_assoc, field_skip, flag_skip, field_le_append, field_le, hone,
      Nat.reduceLeDiff, Nat.reduceSub, Tier.supports, Tier.ground]
    simp (disch := omega) only [Nat.reducePow, Nat.mod_eq_of_lt]
    simp [*]
  | upper j k =>
    simp only [readGeometry, readTier, geometryBytes, List.append_assoc, field_skip, flag_skip, field_le_append, field_le, hone,
      Nat.reduceLeDiff, Nat.reduceSub, Tier.supports, Tier.ground] at ha hb ⊢
    simp (disch := omega) only [Nat.reducePow, Nat.mod_eq_of_lt]
    simp [*]

theorem applyRouting_bytes (p q : Part) (i : Fin 8) : applyRouting i.val (p.entryBytes 6 i.val) q =
    { q with engine := { q.engine with routing := q.engine.routing.set i p.engine.routing[i] } } := by
  simp [applyRouting, Part.entryBytes, field_one]

/-- A signed number is read back from its bytes in two's complement (R167). -/
theorem fieldInt_leInt_append (k : Nat) (v : Int) (q : List Byte) (hk : 0 < k) (hlo : -(2 ^ (8 * k - 1)) ≤ v)
    (hhi : v < 2 ^ (8 * k - 1)) : fieldInt (leInt k v ++ q) 0 k = v := by
  have hpow : (2 : Int) ^ (8 * k) = 2 * 2 ^ (8 * k - 1) := by
    rw [← pow_succ', Nat.sub_add_cancel (by omega)]
  have hbytes : (256 : Nat) ^ k = 2 ^ (8 * k) := by rw [pow_mul]; norm_num
  have hfield : field (leInt k v ++ q) 0 k = (v % 2 ^ (8 * k)).toNat := by
    rw [leInt, field_le_append, Nat.mod_eq_of_lt]
    have := Int.emod_lt_of_pos v (show (0 : Int) < 2 ^ (8 * k) by positivity)
    rw [hbytes]
    zify
    omega
  have hmod := Int.emod_nonneg v (show (2 : Int) ^ (8 * k) ≠ 0 by positivity)
  unfold fieldInt
  rw [hfield]
  dsimp only
  zify
  rw [Int.toNat_of_nonneg hmod]
  by_cases hv : 0 ≤ v
  · rw [Int.emod_eq_of_lt hv (by omega), if_pos hhi]
  · have hneg : v % 2 ^ (8 * k) = v + 2 ^ (8 * k) := by
      rw [← Int.add_emod_right, Int.emod_eq_of_lt (by omega) (by omega)]
    rw [hneg, if_neg (by omega)]
    omega

theorem readCalPoint_bytes (q : CalPoint) (hlo : -8388608 ≤ q.count) (hhi : q.count ≤ 8388607) (hkg : q.kg < 65536) :
    readCalPoint q.bytes = q := by
  have hcount : fieldInt (leInt 3 q.count ++ le 2 q.kg) 0 3 = q.count :=
    fieldInt_leInt_append 3 q.count _ (by decide) hlo (by norm_num; omega)
  have hw : field (leInt 3 q.count ++ le 2 q.kg) 3 2 = q.kg := by
    rw [leInt, field_skip le_rfl, Nat.sub_self, field_le, Nat.mod_eq_of_lt (by simpa using hkg)]
  simp only [readCalPoint, CalPoint.bytes, hcount, hw]

theorem parseBayEntry_bytes (e : BayEntry) (he : e.inRange = true) (hy : e.yHi < 65536) (ht : e.scaleTolerance < 65536) :
    parseBayEntry e.bytes = some e := by
  obtain ⟨c, st, m, ax, fr, yl, yh, cab, sc, sct, al, se, re, on, off⟩ := e
  simp only [BayEntry.inRange, Bool.and_eq_true, decide_eq_true_eq] at he hy ht
  have hm : m.toNat < 2 ^ 32 := m.isLt
  simp only [parseBayEntry, BayEntry.bytes, List.append_assoc, field_skip, flag_skip, field_le_append, flag_bit, field_le,
    Nat.reduceLeDiff, Nat.reduceSub]
  cases fr <;>
  · simp (disch := omega) only [Direction.code, Nat.reducePow, Nat.mod_eq_of_lt]
    simp

theorem readBayEntry_bytes (i : Fin 6) (e : BayEntry) (he : e.inRange = true) (hy : e.yHi < 65536)
    (ht : e.scaleTolerance < 65536) : readBayEntry i.val e.bytes = some e := by
  simp [readBayEntry, parseBayEntry_bytes e he hy ht, he]

theorem paramInRange_lt {i v : Nat} (h : paramInRange i v = true) : v < 2 ^ 32 := by
  unfold paramInRange at h
  split at h <;> simp at h <;> omega

theorem readParam_bytes (i v : Nat) (h : paramInRange i v = true) : readParam i (le 4 v) = some v := by
  rw [readParam, field_le, Nat.mod_eq_of_lt (by simpa using paramInRange_lt h), if_pos h]

/-- Settles O5: one lemma for each table. -/
theorem tableEntriesReadBack : Obligations.TableEntriesReadBack :=
  ⟨readCraneEntry_bytes, readZoneEntry_bytes, readEntryPoint_bytes, readBlock_bytes, readGeometry_bytes_none,
    readGeometry_bytes_some, applyRouting_bytes, readCalPoint_bytes, readBayEntry_bytes, readParam_bytes⟩

end Sys2Proof.Machine
end

section
/-! O9 to O12. The queues of the link: what is forwarded, what is sent next, and how the part's own frames come into REPLY. -/

namespace Sys2Proof.Machine

/-! ## Room -/

theorem Link.replyRoom_iff (l : Link) : l.replyRoom = true ↔ l.reply.length < 16 := decide_eq_true_iff

theorem Link.normalRoom_iff (l : Link) : l.normalRoom = true ↔ l.normal.length < 16 := decide_eq_true_iff

theorem Link.normalRoom_eq_false_iff (l : Link) : l.normalRoom = false ↔ 16 ≤ l.normal.length := by
  rw [Bool.eq_false_iff, Ne, Link.normalRoom_iff, not_lt]

/-! ## O12 -/

/-- A frame of the part's own enters REPLY when the producer holds none before it and REPLY has room. -/
theorem isEmpty_and_replyRoom_iff {α : Type} (q : List α) (l : Link) :
    (q.isEmpty && l.replyRoom) = true ↔ q = [] ∧ l.reply.length < 16 := by
  rw [Bool.and_eq_true, List.isEmpty_iff, Link.replyRoom_iff]

theorem Part.notify_eq (p : Part) (k : NoticeKind) (subject v1 v2 v3 : Nat) :
    p.notify k subject v1 v2 v3 =
      let n : Notice := ⟨k, p.mgmt.clock, subject, v1, v2, v3⟩
      if p.mgmt.notices = [] ∧ p.link.reply.length < 16 then p.onLink (Link.pushReply .notice n.payload)
      else if p.mgmt.notices.length < 32 then { p with mgmt := { p.mgmt with notices := p.mgmt.notices ++ [n] } }
      else { p with mgmt := { p.mgmt with notices := p.mgmt.notices.tail ++ [n], lost := bump p.mgmt.lost } } := by
  simp only [Part.notify, isEmpty_and_replyRoom_iff, Part.now, Config.noticeCapacity, List.drop_one]

/-- Settles O12. -/
theorem ownFramesEnterReplyOrWait : Obligations.OwnFramesEnterReplyOrWait := by
  unfold Obligations.OwnFramesEnterReplyOrWait
  intro p
  refine ⟨fun f a r data => ?_, fun v => ?_, fun a => ?_, fun k subject v1 v2 v3 => p.notify_eq k subject v1 v2 v3⟩
  · simp only [Part.answerFrame, Part.giveReply, Link.replyRoom_iff]
    rfl
  · simp only [Part.giveVerdict, isEmpty_and_replyRoom_iff]
    rfl
  · simp only [Part.giveAnswer, isEmpty_and_replyRoom_iff]
    rfl

/-! ## O11 -/

theorem Part.waits_eq_isSome_oldest (p : Part) (d : Producer) : p.waits d = (p.oldest d).isSome := by
  cases d with
  | gate => simp only [Part.waits, Part.oldest]; cases p.gate.verdicts <;> rfl
  | responder => simp only [Part.waits, Part.oldest]; cases p.mgmt.reply <;> rfl
  | engine => simp only [Part.waits, Part.oldest]; cases p.engine.answers <;> rfl
  | notices => simp only [Part.waits, Part.oldest]; cases p.mgmt.notices <;> rfl

/-- A producer that has a frame gives its oldest one up to REPLY, and the link stays as it is till then. -/
theorem Part.produce_of_oldest {p q : Part} {d : Producer} {k : Kind} {payload : List Byte}
    (h : p.oldest d = some (k, payload, q)) : p.produce d = q.onLink (Link.pushReply k payload) ∧ q.link = p.link := by
  cases d with
  | gate =>
    obtain ⟨v, hv, he⟩ := Option.map_eq_some_iff.1 h
    obtain ⟨rest, hr⟩ := List.head?_eq_some_iff.1 hv
    cases he
    simp [Part.produce, hr]
  | responder =>
    obtain ⟨r, hr, he⟩ := Option.map_eq_some_iff.1 h
    cases he
    simp [Part.produce, hr]
  | engine =>
    obtain ⟨a, ha, he⟩ := Option.map_eq_some_iff.1 h
    obtain ⟨rest, hr⟩ := List.head?_eq_some_iff.1 ha
    cases he
    simp [Part.produce, hr]
  | notices =>
    obtain ⟨n, hn, he⟩ := Option.map_eq_some_iff.1 h
    obtain ⟨rest, hr⟩ := List.head?_eq_some_iff.1 hn
    cases he
    simp [Part.produce, hr]

theorem Link.startSupervisor_turn (l : Link) : l.startSupervisor.turn = l.turn := by
  unfold Link.startSupervisor
  repeat' split
  all_goals rfl

theorem Link.pushReply_turn (k : Kind) (payload : List Byte) (l : Link) : (l.pushReply k payload).turn = l.turn :=
  Link.startSupervisor_turn _

/-- A producer that stands once in the order moves to its end. -/
theorem rotate_of_nodup {before after : List Producer} {d : Producer} (h : (before ++ d :: after).Nodup) :
    rotate (before ++ d :: after) d = before ++ after ++ [d] := by
  rw [List.nodup_append] at h
  obtain ⟨_, hd, hne⟩ := h
  have hb : before.filter (fun x => x != d) = before :=
    List.filter_eq_self.2 fun x hx => by simpa using hne x hx d (by simp)
  have ha : after.filter (fun x => x != d) = after :=
    List.filter_eq_self.2 fun x hx => by
      have hxd : x ≠ d := by
        rintro rfl
        exact (List.nodup_cons.1 hd).1 hx
      simpa using hxd
  simp [rotate, hb, ha]

/-- Settles O11. -/
theorem replyEntryGoesToTheNextProducer : Obligations.ReplyEntryGoesToTheNextProducer := by
  unfold Obligations.ReplyEntryGoesToTheNextProducer
  intro s before after d k payload q hr hroom hturn hnodup hbefore hd
  have hnext : s.part.nextProducer = some d := by
    rw [Part.nextProducer, hturn, List.find?_append]
    have hnone : before.find? s.part.waits = none := by
      rw [List.find?_eq_none]
      intro e he
      simpa [Part.waits_eq_isSome_oldest] using hbefore e he
    rw [hnone, Option.none_or, List.find?_cons_of_pos (by simp [Part.waits_eq_isSome_oldest, hd])]
  obtain ⟨hprod, hlink⟩ := Part.produce_of_oldest hd
  rw [exec_replyEntryGrant]
  refine State.act_eq hr ?_
  have hroom' : s.part.link.replyRoom = true := (Link.replyRoom_iff _).2 hroom
  simp only [Part.grantReply, hroom', hnext, hprod, Part.onLink, Link.pushReply_turn, hlink, hturn,
    rotate_of_nodup (hturn ▸ hnodup)]
  rfl

/-! ## O10 -/

/-- An idle supervisor-port transmitter takes the head of REPLY before that of TELEMETRY. -/
theorem Link.startSupervisor_of_idle (l : Link) (h : l.sup.tx = none) :
    l.startSupervisor =
      { l with
        sup := { l.sup with tx := (l.reply ++ l.telemetry).head? }
        reply := l.reply.tail, telemetry := if l.reply = [] then l.telemetry.tail else l.telemetry } := by
  obtain ⟨sup, crane, urgent, normal, reply, telemetry, seq, turn, station, sender⟩ := l
  obtain ⟨rx, fifo, tx, counts⟩ := sup
  cases h
  cases reply with
  | cons f rest => simp [Link.startSupervisor]
  | nil => cases telemetry <;> simp [Link.startSupervisor]

/-- An idle crane-port transmitter takes the head of URGENT before that of NORMAL. -/
theorem Link.startCrane_of_idle (l : Link) (h : l.crane.tx = none) :
    l.startCrane =
      { l with
        crane := { l.crane with tx := (l.urgent.map (UrgentEntry.frame l.station) ++ l.normal.map NormalEntry.frame).head? }
        urgent := l.urgent.tail, normal := if l.urgent = [] then l.normal.tail else l.normal } := by
  obtain ⟨sup, crane, urgent, normal, reply, telemetry, seq, turn, station, sender⟩ := l
  obtain ⟨rx, fifo, tx, counts⟩ := crane
  cases h
  cases urgent with
  | cons u rest => simp [Link.startCrane]
  | nil => cases normal <;> simp [Link.startCrane]

/-- Settles O10. -/
theorem sentFrameIsFollowedByTheNext : Obligations.SentFrameIsFollowedByTheNext := by
  unfold Obligations.SentFrameIsFollowedByTheNext
  intro s f hr
  refine ⟨fun htx => ?_, fun htx => ?_⟩
  · rw [exec_frameSent]
    refine State.act_eq hr ?_
    simp only [Part.frameSent, htx, Option.isSome_some, if_true, Part.onPort, Part.onLink, Link.startSupervisor_of_idle]
  · rw [exec_frameSent]
    refine State.act_eq hr ?_
    simp only [Part.frameSent, htx, Option.isSome_some, if_true, Part.onPort, Part.onLink, Link.startCrane_of_idle]

/-! ## O9 -/

theorem hasSame_eq_true_iff (f : Frame) (q : List Frame) : hasSame f q = true ↔ ∃ g ∈ q, f.Alike g := by
  simp [hasSame]

/-- The first frame alike is the one that leaves the queue. -/
theorem dropSame_append {f g : Frame} {a b : List Frame} (ha : ∀ h ∈ a, ¬ f.Alike h) (hg : f.Alike g) :
    dropSame f (a ++ g :: b) = a ++ b := by
  induction a with
  | nil => exact if_pos hg
  | cons x xs ih =>
    rw [List.cons_append, dropSame, if_neg (ha x (by simp)), ih fun h hh => ha h (by simp [hh]), List.cons_append]

/-- A frame joins TELEMETRY, which makes room for it by R172. -/
theorem Link.pushTelemetry_of_makesRoom {l : Link} {f : Frame} {kept : List Frame} {n : Nat} (h : l.MakesRoom f kept n) :
    l.pushTelemetry f = l.telemetryOf kept f n := by
  obtain ⟨hlt, rfl, rfl⟩ | ⟨hfull, rfl, hkept⟩ := h
  · have hn : decide (Config.telemetryCapacity ≤ l.telemetry.length) = false := decide_eq_false (by exact not_le.2 hlt)
    simp [Link.pushTelemetry, Link.telemetryOf, hn]
  · have hn : decide (Config.telemetryCapacity ≤ l.telemetry.length) = true := decide_eq_true hfull
    have hdrop : (if hasSame f l.telemetry then dropSame f l.telemetry else l.telemetry.drop 1) = kept := by
      obtain ⟨a, g, b, ht, ha, hg, rfl⟩ | ⟨hnone, rfl⟩ := hkept
      · rw [if_pos ((hasSame_eq_true_iff f _).2 ⟨g, by simp [ht], hg⟩), ht, dropSame_append ha hg]
      · rw [if_neg, List.drop_one]
        rw [hasSame_eq_true_iff]
        rintro ⟨g, hg, he⟩
        exact hnone g hg he
    simp only [Link.pushTelemetry, Link.telemetryOf, hn, if_true, hdrop]

theorem Part.onLink_congr {p : Part} {f g : Link → Link} (h : f p.link = g p.link) : p.onLink f = p.onLink g := by
  simp only [Part.onLink, h]

/-- Settles O9. -/
theorem framesForNoUnitGoOn : Obligations.FramesForNoUnitGoOn := by
  unfold Obligations.FramesForNoUnitGoOn
  intro s f hr
  refine ⟨fun hh => ?_, fun hh => ?_⟩
  · rw [exec_supervisorFrameForward]
    refine ⟨fun hc hroom => ?_, fun hc hfull => ?_, fun hc => ?_, fun hc => ?_⟩
    · refine State.act_eq hr ?_
      have hroom' : s.part.link.normalRoom = true := (Link.normalRoom_iff _).2 hroom
      simp only [Part.forwardSup, hh, hc, hroom', if_true]
      rfl
    · refine State.act_eq_self hr ?_
      have hroom' : s.part.link.normalRoom = false := (Link.normalRoom_eq_false_iff _).2 hfull
      simp [Part.forwardSup, hh, hc, hroom']
    · exact State.act_eq hr (by simp only [Part.forwardSup, hh, hc]; rfl)
    · exact State.act_eq hr (by simp only [Part.forwardSup, hh, hc]; rfl)
  · rw [exec_craneFrameForward]
    refine ⟨fun kept n hroom => ⟨fun hc => ?_, fun hc => ?_⟩, fun hc => ?_, fun hc => ?_⟩
    · refine State.act_eq hr ?_
      simp only [Part.forwardCrane, hh, hc, Bool.false_eq_true, if_false]
      exact Part.onLink_congr (Link.pushTelemetry_of_makesRoom hroom)
    · refine State.act_eq hr ?_
      simp only [Part.forwardCrane, hh, hc, if_true]
      exact Part.onLink_congr (Link.pushTelemetry_of_makesRoom hroom)
    · exact State.act_eq hr (by simp only [Part.forwardCrane, hh, hc]; rfl)
    · exact State.act_eq hr (by simp only [Part.forwardCrane, hh, hc]; rfl)

end Sys2Proof.Machine
end

section
/-! O8. The lines of R165 and R166. -/

namespace Sys2Proof.Machine

theorem mem_craneList (c : Fin 4) : c ∈ craneList := by fin_cases c <;> decide

theorem mem_bayList (b : Fin 6) : b ∈ bayList := by fin_cases b <;> decide

theorem Part.craneAt_eq_some_iff (p : Part) (station : Byte) (c : Fin 4) :
    p.craneAt station = some c ↔ (p.entry c).configured = true ∧ station.toNat = c.val + 1 := by
  refine ⟨fun h => (craneAt_range h).symm, fun ⟨hc, hs⟩ => ?_⟩
  cases h : p.craneAt station with
  | none => simpa [hc, hs] using List.find?_eq_none.1 h c (mem_craneList c)
  | some d =>
    have : d.val = c.val := by have := (craneAt_range h).1; omega
    rw [Fin.ext this]

theorem Part.bayAt_eq_none_iff (p : Part) (station : Byte) :
    p.bayAt station = none ↔
      ∀ b : Fin 6, (p.bayEntry b).configured = true → station.toNat ≠ (p.bayEntry b).station := by
  simp [Part.bayAt, List.find?_eq_none, mem_bayList]

/-- No crane has the broadcast station. -/
theorem Part.craneAt_broadcast (p : Part) : p.craneAt 31 = none := by
  cases h : p.craneAt 31 with
  | none => rfl
  | some c =>
    have : (31 : Byte).toNat = c.val + 1 := (craneAt_range h).1
    have : (31 : Byte).toNat = 31 := rfl
    omega

/-- No crane has the supervisor's station. -/
theorem Part.craneAt_zero (p : Part) : p.craneAt 0 = none := by
  cases h : p.craneAt 0 with
  | none => rfl
  | some c =>
    have : (0 : Byte).toNat = c.val + 1 := (craneAt_range h).1
    have : (0 : Byte).toNat = 0 := rfl
    omega

theorem Part.senderNow_iff (p : Part) (station : Byte) :
    (∀ c, p.senderNow station = .crane c ↔ p.craneAt station = some c)
      ∧ (∀ b, p.senderNow station = .bay b ↔ p.craneAt station = none ∧ p.bayAt station = some b)
      ∧ (p.senderNow station = .other ↔ p.craneAt station = none ∧ p.bayAt station = none) := by
  unfold Part.senderNow
  cases p.craneAt station with
  | some c => simp
  | none => cases p.bayAt station <;> simp

theorem Frame.management_of_kind {f : Frame} {k : Kind} (h : kindOf f.kind = some k) : f.management = k.isManagement := by
  simp [Frame.management, h]

theorem Frame.management_of_none {f : Frame} (h : kindOf f.kind = none) : f.management = false := by
  simp [Frame.management, h]

/-- The lines of R165 for a management frame. -/
theorem Part.classifySup_of_management (p : Part) {f : Frame} {k : Kind} (hk : kindOf f.kind = some k)
    (hm : k.isManagement = true) :
    p.classifySup f = if f.dest = p.link.station ∧ f.src = 0 then .responder k else .refused := by
  simp [Part.classifySup, hk, hm]

/-- The lines of R165 for a frame of another kind. -/
theorem Part.classifySup_of_kind (p : Part) {f : Frame} {k : Kind} (hk : kindOf f.kind = some k)
    (hm : k.isManagement = false) :
    p.classifySup f =
      if f.dest = p.link.station then .refused
      else match p.craneAt f.dest with
        | some c => if k.isOrder then .order k c else .unclaimed
        | none =>
          if f.dest = 31 then if k = .halt then .broadcastHalt else .unclaimed
          else if f.dest = 0 then .unclaimed
          else .forward := by
  simp [Part.classifySup, hk, hm] <;> rfl

/-- The lines of R165 for a frame of no kind the part knows. -/
theorem Part.classifySup_of_none (p : Part) {f : Frame} (hk : kindOf f.kind = none) :
    p.classifySup f =
      if f.dest = p.link.station then .refused
      else if (p.craneAt f.dest).isSome then .unclaimed
      else if f.dest = 31 then .forward
      else if f.dest = 0 then .unclaimed
      else .forward := by
  simp [Part.classifySup, hk]

theorem Part.classifySup_responder_iff (p : Part) (f : Frame) (k : Kind) :
    p.classifySup f = .responder k ↔
      kindOf f.kind = some k ∧ k.isManagement = true ∧ f.dest = p.link.station ∧ f.src = 0 := by
  cases hk : kindOf f.kind with
  | none => rw [p.classifySup_of_none hk]; grind
  | some k' =>
    cases hm : k'.isManagement with
    | true => rw [p.classifySup_of_management hk hm]; grind
    | false => rw [p.classifySup_of_kind hk hm]; grind

theorem Part.classifySup_refused_iff (p : Part) (f : Frame) :
    p.classifySup f = .refused ↔
      if f.management then ¬ (f.dest = p.link.station ∧ f.src = 0) else f.dest = p.link.station := by
  cases hk : kindOf f.kind with
  | none => rw [p.classifySup_of_none hk, f.management_of_none hk]; grind
  | some k =>
    rw [f.management_of_kind hk]
    cases hm : k.isManagement with
    | true => rw [p.classifySup_of_management hk hm]; grind
    | false => rw [p.classifySup_of_kind hk hm]; grind

theorem Part.classifySup_order_iff (p : Part) (f : Frame) (k : Kind) (c : Fin 4) :
    p.classifySup f = .order k c ↔
      kindOf f.kind = some k ∧ k.isOrder = true ∧ f.dest ≠ p.link.station ∧ p.craneAt f.dest = some c := by
  cases hk : kindOf f.kind with
  | none => rw [p.classifySup_of_none hk]; grind
  | some k' =>
    have hno : k'.isOrder = true → k'.isManagement = false := isManagement_of_isOrder
    cases hm : k'.isManagement with
    | true => rw [p.classifySup_of_management hk hm]; grind
    | false => rw [p.classifySup_of_kind hk hm]; grind

theorem Part.classifySup_broadcastHalt_iff (p : Part) (f : Frame) :
    p.classifySup f = .broadcastHalt ↔ kindOf f.kind = some .halt ∧ f.dest = 31 ∧ f.dest ≠ p.link.station := by
  have h31 := p.craneAt_broadcast
  cases hk : kindOf f.kind with
  | none => rw [p.classifySup_of_none hk]; grind
  | some k =>
    have hno : k = .halt → k.isManagement = false := fun e => by rw [e]; rfl
    cases hm : k.isManagement with
    | true => rw [p.classifySup_of_management hk hm]; grind
    | false => rw [p.classifySup_of_kind hk hm]; grind

theorem Part.classifySup_forward_iff (p : Part) (f : Frame) :
    p.classifySup f = .forward ↔
      f.management = false ∧ f.dest ≠ p.link.station ∧ p.craneAt f.dest = none ∧ f.dest ≠ 0
        ∧ (f.dest = 31 → kindOf f.kind = none) := by
  have h31 : (31 : Byte) ≠ 0 := by decide
  cases hk : kindOf f.kind with
  | none =>
    rw [p.classifySup_of_none hk, f.management_of_none hk]
    cases hc : p.craneAt f.dest with
    | none => grind
    | some c => grind
  | some k =>
    rw [f.management_of_kind hk]
    cases hm : k.isManagement with
    | true => rw [p.classifySup_of_management hk hm]; grind
    | false => rw [p.classifySup_of_kind hk hm]; grind

/-- A source of which no telegram is taken. -/
def Part.conflicts (p : Part) (f : Frame) : Prop := f.src = 0 ∨ f.src = 31 ∨ f.src = p.link.station

theorem Part.not_conflicts_iff (p : Part) (f : Frame) :
    ¬ p.conflicts f ↔ f.src ≠ 0 ∧ f.src ≠ 31 ∧ f.src ≠ p.link.station := by
  simp [Part.conflicts]

/-- The two lines of R166 that come before the sender's. -/
theorem Part.classifyCrane_cases (p : Part) (f : Frame) :
    (f.management = true ∧ p.classifyCrane f = .refused)
      ∨ (f.management = false ∧ p.conflicts f ∧ p.classifyCrane f = .conflict)
      ∨ (f.management = false ∧ ¬ p.conflicts f) := by
  unfold Part.conflicts Part.classifyCrane
  grind

/-- The line of R166 for a crane's frame. -/
theorem Part.classifyCrane_of_crane (p : Part) {f : Frame} {c : Fin 4} (hm : f.management = false) (hs : ¬ p.conflicts f)
    (hc : p.senderOf f = .crane c) :
    p.classifyCrane f =
      match kindOf f.kind with
      | some .position => .position c
      | some .load => .load c
      | some .done =>
        match readDone f.payload with
        | some d => .done c d
        | none => .telemetry true
      | _ => .telemetry true := by
  unfold Part.conflicts at hs
  simp only [Part.classifyCrane, hm, hs, hc, if_false, Bool.false_eq_true] <;> rfl

/-- The line of R166 for a bay unit's frame. -/
theorem Part.classifyCrane_of_bay (p : Part) {f : Frame} {b : Fin 6} (hm : f.management = false) (hs : ¬ p.conflicts f)
    (hb : p.senderOf f = .bay b) :
    p.classifyCrane f = if kindOf f.kind = some .bayReport then .bayReport b else .telemetry true := by
  unfold Part.conflicts at hs
  simp only [Part.classifyCrane, hm, hs, hb, if_false, Bool.false_eq_true]

/-- The line of R166 for a foreign frame. -/
theorem Part.classifyCrane_of_other (p : Part) {f : Frame} (hm : f.management = false) (hs : ¬ p.conflicts f)
    (ho : p.senderOf f = .other) : p.classifyCrane f = .telemetry false := by
  unfold Part.conflicts at hs
  simp only [Part.classifyCrane, hm, hs, ho, if_false, Bool.false_eq_true]

theorem Part.classifyCrane_refused_iff (p : Part) (f : Frame) : p.classifyCrane f = .refused ↔ f.management = true := by
  obtain ⟨hm, h⟩ | ⟨hm, _, h⟩ | ⟨hm, hs⟩ := p.classifyCrane_cases f
  · simp [hm, h]
  · simp [hm, h]
  · cases ho : p.senderOf f with
    | crane c => rw [p.classifyCrane_of_crane hm hs ho]; grind
    | bay b => rw [p.classifyCrane_of_bay hm hs ho]; grind
    | other => rw [p.classifyCrane_of_other hm hs ho]; grind

theorem Part.classifyCrane_conflict_iff (p : Part) (f : Frame) :
    p.classifyCrane f = .conflict ↔ f.management = false ∧ p.conflicts f := by
  obtain ⟨hm, h⟩ | ⟨hm, hs, h⟩ | ⟨hm, hs⟩ := p.classifyCrane_cases f
  · simp [hm, h]
  · simp [hm, h, hs]
  · cases ho : p.senderOf f with
    | crane c => rw [p.classifyCrane_of_crane hm hs ho]; grind
    | bay b => rw [p.classifyCrane_of_bay hm hs ho]; grind
    | other => rw [p.classifyCrane_of_other hm hs ho]; grind

/-- The telegrams of a crane are of kinds that are no management kinds, and only one from that crane is taken. -/
theorem Part.classifyCrane_telegram_iff (p : Part) (f : Frame) (x : CraneClass) (s : Sender) (k : Kind) (form : Prop)
    (hk : k.isManagement = false) (hr : x ≠ .refused) (hc : x ≠ .conflict)
    (hline : f.management = false → ¬ p.conflicts f →
      (p.classifyCrane f = x ↔ kindOf f.kind = some k ∧ p.senderOf f = s ∧ form)) :
    p.classifyCrane f = x ↔ kindOf f.kind = some k ∧ ¬ p.conflicts f ∧ p.senderOf f = s ∧ form := by
  have hm' : kindOf f.kind = some k → f.management = false := fun h => (f.management_of_kind h).trans hk
  obtain ⟨hm, h⟩ | ⟨hm, hs, h⟩ | ⟨hm, hs⟩ := p.classifyCrane_cases f
  · grind
  · grind
  · rw [hline hm hs]
    simp [hs]

/-- The sender decides which line of R166 a frame meets. -/
theorem Part.classifyCrane_line_iff (p : Part) (f : Frame) (hm : f.management = false) (hs : ¬ p.conflicts f) :
    (∀ c, p.classifyCrane f = .position c ↔ kindOf f.kind = some .position ∧ p.senderOf f = .crane c ∧ True)
      ∧ (∀ c, p.classifyCrane f = .load c ↔ kindOf f.kind = some .load ∧ p.senderOf f = .crane c ∧ True)
      ∧ (∀ c d, p.classifyCrane f = .done c d ↔
          kindOf f.kind = some .done ∧ p.senderOf f = .crane c ∧ readDone f.payload = some d)
      ∧ (∀ b, p.classifyCrane f = .bayReport b ↔ kindOf f.kind = some .bayReport ∧ p.senderOf f = .bay b ∧ True)
      ∧ (p.classifyCrane f = .telemetry false ↔ p.senderOf f = .other) := by
  cases ho : p.senderOf f with
  | crane c => rw [p.classifyCrane_of_crane hm hs ho]; grind
  | bay b => rw [p.classifyCrane_of_bay hm hs ho]; grind
  | other => rw [p.classifyCrane_of_other hm hs ho]; grind

theorem Part.classifyCrane_foreign_iff (p : Part) (f : Frame) :
    p.classifyCrane f = .telemetry false ↔ f.management = false ∧ ¬ p.conflicts f ∧ p.senderOf f = .other := by
  obtain ⟨hm, h⟩ | ⟨hm, hs, h⟩ | ⟨hm, hs⟩ := p.classifyCrane_cases f
  · simp [hm, h]
  · simp [h, hs]
  · simp [(p.classifyCrane_line_iff f hm hs).2.2.2.2, hm, hs]

/-- The next frame of the crane-port FIFO is judged as it reaches the head. -/
theorem Part.dropCrane_of_next (p : Part) {f g : Frame} {rest : List Frame} (h : p.link.crane.fifo = f :: g :: rest) :
    p.dropCrane.link.crane.fifo = g :: rest ∧ p.dropCrane.link.sender = some (p.senderNow g.src) := by
  have hfifo : p.dropCrane.link.crane.fifo = p.link.crane.fifo.drop 1 := rfl
  have hsender : p.dropCrane.link.sender = (p.link.crane.fifo.drop 1).head?.map fun f => p.senderNow f.src := rfl
  rw [hfifo, hsender, h]
  exact ⟨rfl, rfl⟩

/-- Settles O8. -/
theorem framesAreClassified : Obligations.FramesAreClassified := by
  unfold Obligations.FramesAreClassified
  refine ⟨fun p station => ?_, fun p f x h => ?_, fun p f g rest h => p.dropCrane_of_next h, fun p f => ?_⟩
  · obtain ⟨hcrane, hbay, hother⟩ := p.senderNow_iff station
    exact ⟨hcrane, hbay, hother, p.craneAt_eq_some_iff station, p.bayAt_eq_none_iff station⟩
  · simp [Part.senderOf, h]
  · have telegram := p.classifyCrane_telegram_iff f
    have line := p.classifyCrane_line_iff f
    refine ⟨p.classifySup_responder_iff f, p.classifySup_refused_iff f, p.classifySup_order_iff f,
      p.classifySup_broadcastHalt_iff f, p.classifySup_forward_iff f, p.classifyCrane_refused_iff f,
      p.classifyCrane_conflict_iff f, fun c => ?_, fun c => ?_, fun c d => ?_, fun b => ?_, ?_⟩
    · rw [telegram (.position c) (.crane c) .position True rfl nofun nofun fun hm hs => (line hm hs).1 c, Part.not_conflicts_iff]
      tauto
    · rw [telegram (.load c) (.crane c) .load True rfl nofun nofun fun hm hs => (line hm hs).2.1 c, Part.not_conflicts_iff]
      tauto
    · rw [telegram (.done c d) (.crane c) .done _ rfl nofun nofun fun hm hs => (line hm hs).2.2.1 c d,
        Part.not_conflicts_iff]
      tauto
    · rw [telegram (.bayReport b) (.bay b) .bayReport True rfl nofun nofun fun hm hs => (line hm hs).2.2.2.1 b,
        Part.not_conflicts_iff]
      tauto
    · rw [p.classifyCrane_foreign_iff, Part.not_conflicts_iff]
      tauto

end Sys2Proof.Machine
end

section
/-! O7. The receivers: a frame's bytes, one after another, from the start mark to its check. -/

namespace Sys2Proof.Machine

/-! ## A frame on the line -/

/-- The bytes of a frame after its start mark (R161). -/
def Frame.body (f : Frame) : List Byte := f.covered ++ le 2 f.check.toNat

theorem Frame.covered_length (f : Frame) : f.covered.length = 5 + f.payload.length := by
  rw [Frame.covered, List.length_append]
  rfl

theorem Frame.body_length (f : Frame) : f.body.length = 7 + f.payload.length := by
  simp [Frame.body, Frame.covered_length]
  omega

theorem Frame.field_body_length (f : Frame) (h : f.payload.length ≤ 60) : field f.body 4 1 = f.payload.length := by
  rw [field_one (by rw [f.body_length]; omega)]
  simp [Frame.body, Frame.covered]
  omega

/-- A frame is the one its bytes say. -/
theorem frameOf_body (f : Frame) (h : f.payload.length ≤ 60) : frameOf f.body = f := by
  have hlen := f.body_length
  have hcheck : field f.body (5 + f.payload.length) 2 = f.check.toNat := by
    rw [Frame.body, field_append_of_le (by rw [f.covered_length]), f.covered_length, Nat.sub_self, field_le]
    exact Nat.mod_eq_of_lt f.check.isLt
  have hpayload : (f.body.drop 5).take f.payload.length = f.payload := by
    simp [Frame.body, Frame.covered]
  simp only [frameOf, f.field_body_length h, hcheck, hpayload]
  rw [ field_one (by omega), field_one (by omega), field_one (by omega),
    field_one (by omega)]
  simp [Frame.body, Frame.covered]

/-! ## The receiver -/

/-- A byte inside a frame: the last one completes it (R161). -/
theorem Port.feed_of_body {r : Port} {f : Frame} {xs ys : List Byte} {y : Byte} (hr : r.rx = .inFrame xs)
    (hb : f.body = xs ++ y :: ys) (h : f.payload.length ≤ 60) :
    r.feed y = if ys = [] then { r with rx := .hunting }.complete f else { r with rx := .inFrame (xs ++ [y]) } := by
  have hb' : f.body = (xs ++ [y]) ++ ys := by rw [hb, List.append_assoc, List.singleton_append]
  have hlen : (xs ++ [y]).length + ys.length = 7 + f.payload.length := by
    rw [← List.length_append, ← hb', f.body_length]
  have hfield : 5 ≤ (xs ++ [y]).length → field (xs ++ [y]) 4 1 = f.payload.length := fun h5 => by
    rw [← f.field_body_length h, hb', field_append_left (p := xs ++ [y]) h5]
  have hbyte : (xs ++ [y]).length = 5 → y.toNat = f.payload.length := fun h5 => by
    have hx : xs.length = 4 := by simpa using h5
    rw [← hfield (by omega), field_one (by omega)]
    simp [hx]
  have hshort : ¬ ((xs ++ [y]).length = 5 ∧ Config.maxPayload < y.toNat) := by
    rintro ⟨h5, hy⟩
    rw [hbyte h5] at hy
    exact absurd hy (not_lt.2 h)
  simp only [Port.feed, hr, if_neg hshort]
  by_cases hys : ys = []
  · have hl : (xs ++ [y]).length = 7 + f.payload.length := by simpa [hys] using hlen
    have hend : 5 < (xs ++ [y]).length ∧ (xs ++ [y]).length = 7 + field (xs ++ [y]) 4 1 :=
      ⟨by omega, by rw [hfield (by omega), hl]⟩
    have hwhole : xs ++ [y] = f.body := by rw [hb', hys, List.append_nil]
    rw [if_pos hend, if_pos hys, hwhole, frameOf_body f h]
  · have hpos : 0 < ys.length := List.length_pos_iff.2 hys
    have hmore : ¬ (5 < (xs ++ [y]).length ∧ (xs ++ [y]).length = 7 + field (xs ++ [y]) 4 1) := by
      rintro ⟨h5, he⟩
      rw [hfield (by omega)] at he
      omega
    rw [if_neg hmore, if_neg hys]

/-- The bytes that remain of a frame bring it to its check. -/
theorem Port.feedAll_of_body {f : Frame} (h : f.payload.length ≤ 60) (y : Byte) (ys : List Byte) :
    ∀ (r : Port) (xs : List Byte), r.rx = .inFrame xs → f.body = xs ++ y :: ys →
      r.feedAll (y :: ys) = { r with rx := .hunting }.complete f := by
  induction ys generalizing y with
  | nil =>
    intro r xs hr hb
    exact (Port.feed_of_body hr hb h).trans (if_pos rfl)
  | cons z zs ih =>
    intro r xs hr hb
    have hfeed : r.feed y = { r with rx := .inFrame (xs ++ [y]) } := by
      rw [Port.feed_of_body hr hb h, if_neg (List.cons_ne_nil z zs)]
    calc r.feedAll (y :: z :: zs) = (r.feed y).feedAll (z :: zs) := rfl
      _ = _ := by
        rw [hfeed, ih z _ (xs ++ [y]) rfl (by rw [hb, List.append_assoc, List.singleton_append])]

/-- A frame that arrives whole is checked, and a good one is offered to the FIFO (R161 to R163). -/
theorem Port.feedAll_wire {r : Port} {f : Frame} (hr : r.rx = .hunting) (h : f.payload.length ≤ 60) :
    r.feedAll f.wire =
      if crc f.covered ≠ f.check then { r with counts := { r.counts with checkErrors := bump r.counts.checkErrors } }
      else if r.fifo.length < 4 then
        { r with fifo := r.fifo ++ [f], counts := { r.counts with good := bump r.counts.good } }
      else { r with counts := { r.counts with good := bump r.counts.good, overruns := bump r.counts.overruns } } := by
  have hmark : r.feed 0xA7 = { r with rx := .inFrame [] } := by simp [Port.feed, hr]
  have hbody : f.body = [] ++ f.dest :: f.body.tail := rfl
  have hwhole : { r with rx := .hunting } = r := by rw [← hr]
  calc r.feedAll f.wire = ({ r with rx := .inFrame [] } : Port).feedAll (f.dest :: f.body.tail) := by
        rw [← hmark]; rfl
    _ = r.complete f := by rw [Port.feedAll_of_body h _ _ _ [] rfl hbody, hwhole]
    _ = _ := by
      simp only [Port.complete, Port.offer, ite_not]
      rfl

/-- Bytes without a start mark are skipped while the receiver hunts (R161). -/
theorem Port.feedAll_of_no_mark {r : Port} (hr : r.rx = .hunting) {line : List Byte} (h : (0xA7 : Byte) ∉ line) :
    r.feedAll line = r := by
  induction line with
  | nil => rfl
  | cons b bs ih =>
    have hfeed : r.feed b = r := by
      have hb : b ≠ 0xA7 := fun e => h (e ▸ List.mem_cons_self)
      simp only [Port.feed, hr]
      exact if_neg hb
    calc r.feedAll (b :: bs) = (r.feed b).feedAll bs := rfl
      _ = r := by rw [hfeed, ih fun hm => h (List.mem_cons_of_mem _ hm)]

/-! ## The part's ports -/

theorem Part.onPort_congr {p : Part} {id : PortId} {f g : Port → Port} (h : f (p.port id) = g (p.port id)) :
    p.onPort id f = p.onPort id g := by
  cases id with
  | supervisor =>
    exact Part.onLink_congr (f := fun l => { l with sup := f l.sup }) (g := fun l => { l with sup := g l.sup })
      (congrArg (fun x => { p.link with sup := x }) h)
  | crane =>
    exact Part.onLink_congr (f := fun l => { l with crane := f l.crane }) (g := fun l => { l with crane := g l.crane })
      (congrArg (fun x => { p.link with crane := x }) h)

theorem Part.onPort_self {p : Part} {id : PortId} {f : Port → Port} (h : f (p.port id) = p.port id) : p.onPort id f = p := by
  rw [Part.onPort_congr (g := fun r => r) h]
  cases id <;> rfl

/-- Bytes that leave the head of the crane-port FIFO where it is (R164). -/
theorem Part.receive_of_same_head {p : Part} {id : PortId} {line : List Byte}
    (h : p.craneHead.isNone = true → (p.onPort id fun r => r.feedAll line).craneHead = none) :
    p.receive id line = p.onPort id fun r => r.feedAll line := by
  unfold Part.receive
  refine if_neg fun hc => ?_
  obtain ⟨hnone, hsome⟩ := Bool.and_eq_true_iff.1 hc
  rw [h hnone] at hsome
  cases hsome

/-- Settles O7. -/
theorem receiverChecksFrames : Obligations.ReceiverChecksFrames := by
  unfold Obligations.ReceiverChecksFrames
  intro s id hr
  refine ⟨fun f hrx hlen => ?_, fun line hrx hline => ?_, fun bytes next hrx => ?_, fun next hrx => ?_,
    fun bytes length hrx h4 hbig => ?_⟩
  · intro p
    have hp : (s.part.onPort id fun r => r.feedAll f.wire) = p := Part.onPort_congr (Port.feedAll_wire hrx hlen)
    rw [exec_frameReceived]
    refine State.act_eq hr ?_
    split
    next hhead =>
      obtain ⟨rfl, hempty, hcrc⟩ := hhead
      have hnone : s.part.craneHead = none := by rw [Part.craneHead, hempty]; rfl
      have hq : p.craneHead = some f := by
        simp [p, Part.craneHead, Part.onPort, Part.onLink, hcrc, hempty]
      rw [Part.receive, hp, hnone, hq]
      simp only [Option.isNone_none, Option.isSome_some, Bool.and_self, if_true, Part.judgeHead, hq, Option.map_some]
      rfl
    next hhead =>
      rw [Part.receive_of_same_head, hp]
      intro hnone
      have hempty : s.part.link.crane.fifo = [] := by simpa [Part.craneHead] using hnone
      rw [hp]
      cases id with
      | supervisor => simp [p, Part.craneHead, Part.onPort, Part.onLink, hempty]
      | crane =>
        have hcrc : crc f.covered ≠ f.check := fun h => hhead ⟨rfl, hempty, h⟩
        simp [p, Part.craneHead, Part.onPort, Part.onLink, hcrc, hempty]
  · have hp : (s.part.onPort id fun r => r.feedAll line) = s.part := Part.onPort_self (Port.feedAll_of_no_mark hrx hline)
    rw [exec_frameReceived]
    refine State.act_eq_self hr ?_
    rw [Part.receive_of_same_head, hp]
    rw [hp]
    simp
  · rw [exec_interByteGap]
    refine State.act_eq hr (Part.onPort_congr ?_)
    simp only [Port.gap, hrx, Port.feed, Port.framingError]
    split <;> rfl
  · rw [exec_interByteGap]
    refine State.act_eq hr (Part.onPort_congr ?_)
    simp only [Port.gap, hrx, Port.feed]
    split
    · rfl
    · rw [← hrx]
  · rw [exec_frameLengthAbove60]
    refine State.act_eq hr (Part.onPort_congr ?_)
    have hl : (bytes ++ [length]).length = 5 := by simp [h4]
    simp only [Port.expectsLength, hrx, h4, beq_self_eq_true, Bool.true_and, decide_eq_true_eq, Port.feed, hl, true_and]
    rw [if_pos (show Config.maxPayload < length.toNat from hbig), if_pos (show Config.maxPayload < length.toNat from hbig)]
    rfl

end Sys2Proof.Machine
end

section
/-! O36, O37, O52 and O58. Computations: the winner of an allocation pass, the placement test, the state of a bay and the
conversion through a calibration table. -/

namespace Sys2Proof.Machine

/-! ## O58 -/

theorem nearest_of_nonneg {a : Int} (h : 0 ≤ a) (b : Nat) : nearest a b = ((2 * a.toNat + b) / (2 * b) : Nat) := by
  have hn : a.natAbs = a.toNat := by omega
  rw [nearest, if_neg (by omega), hn]

theorem nearest_nonneg {a : Int} (h : 0 ≤ a) (b : Nat) : 0 ≤ nearest a b := by
  rw [nearest_of_nonneg h]
  exact Int.natCast_nonneg _

theorem nearest_mono {a b : Int} (h : 0 ≤ a) (hab : a ≤ b) (n : Nat) : nearest a n ≤ nearest b n := by
  rw [nearest_of_nonneg h, nearest_of_nonneg (h.trans hab)]
  exact_mod_cast Nat.div_le_div_right (by omega)

/-- A multiple of the divisor is divided without rest. -/
theorem nearest_mul {n : Nat} (hn : 0 < n) (k : Nat) : nearest ((n : Int) * k) n = k := by
  rw [nearest_of_nonneg (by positivity)]
  have hk : ((n : Int) * k).toNat = n * k := by rw [← Nat.cast_mul, Int.toNat_natCast]
  have hdiv : (2 * (n * k) + n) / (2 * n) = k := by
    rw [show 2 * (n * k) + n = n + 2 * n * k by ring, Nat.add_mul_div_left _ _ (by omega), Nat.div_eq_of_lt (by omega), zero_add]
  rw [hk, hdiv]

/-- The weight on the segment between two points (R80). -/
def CalPoint.between (a b : CalPoint) (c : Int) : Nat :=
  ((a.kg : Int) + nearest ((c - a.count) * ((b.kg : Int) - a.kg)) (b.count - a.count).toNat).toNat

theorem convert_cons_cons (a b : CalPoint) (rest : List CalPoint) (c : Int) :
    convert c (a :: b :: rest) =
      if c ≤ a.count then (a.kg, false)
      else if c ≤ b.count then (a.between b c, false)
      else convert c (b :: rest) := rfl

theorem CalPoint.le_between {a b : CalPoint} {c : Int} (hk : a.kg ≤ b.kg) (hc : a.count ≤ c) : a.kg ≤ a.between b c := by
  have hnum : 0 ≤ (c - a.count) * ((b.kg : Int) - a.kg) := mul_nonneg (by omega) (by omega)
  have := nearest_nonneg hnum (b.count - a.count).toNat
  unfold CalPoint.between
  omega

theorem CalPoint.between_mono {a b : CalPoint} {c d : Int} (hk : a.kg ≤ b.kg) (hc : a.count ≤ c) (hcd : c ≤ d) :
    a.between b c ≤ a.between b d := by
  have hnum : 0 ≤ (c - a.count) * ((b.kg : Int) - a.kg) := mul_nonneg (by omega) (by omega)
  have hle : (c - a.count) * ((b.kg : Int) - a.kg) ≤ (d - a.count) * ((b.kg : Int) - a.kg) :=
    mul_le_mul_of_nonneg_right (by omega) (by omega)
  have := nearest_mono hnum hle (b.count - a.count).toNat
  unfold CalPoint.between
  omega

/-- The further point's count gives its weight. -/
theorem CalPoint.between_end {a b : CalPoint} (hk : a.kg ≤ b.kg) (hc : a.count < b.count) : a.between b b.count = b.kg := by
  have hmul := nearest_mul (n := (b.count - a.count).toNat) (by omega) (b.kg - a.kg)
  rw [show (((b.count - a.count).toNat : Nat) : Int) = b.count - a.count by omega,
    show ((b.kg - a.kg : Nat) : Int) = (b.kg : Int) - a.kg by omega] at hmul
  unfold CalPoint.between
  rw [hmul]
  omega

/-- The table rises from point to point (R75). -/
abbrev Rises (table : List CalPoint) : Prop := table.Pairwise fun p q => p.count < q.count ∧ p.kg ≤ q.kg

theorem convert_of_le_first (a : CalPoint) (rest : List CalPoint) {c : Int} (h : c ≤ a.count) :
    convert c (a :: rest) = (a.kg, false) := by
  cases rest with
  | nil => simp [convert, h]
  | cons b rest => rw [convert_cons_cons, if_pos h]

theorem Rises.head {a b : CalPoint} {rest : List CalPoint} (h : Rises (a :: b :: rest)) :
    a.count < b.count ∧ a.kg ≤ b.kg := (List.pairwise_cons.1 h).1 b List.mem_cons_self

theorem Rises.tail {a : CalPoint} {rest : List CalPoint} (h : Rises (a :: rest)) : Rises rest := (List.pairwise_cons.1 h).2

theorem convert_point {rest : List CalPoint} : ∀ {a : CalPoint}, Rises (a :: rest) → ∀ q ∈ a :: rest,
    convert q.count (a :: rest) = (q.kg, false) := by
  induction rest with
  | nil =>
    intro a _ q hq
    rw [List.mem_singleton.1 hq]
    exact convert_of_le_first a [] le_rfl
  | cons b rest ih =>
    intro a h q hq
    rcases List.mem_cons.1 hq with rfl | hq
    · exact convert_of_le_first q _ le_rfl
    · have haq : a.count < q.count := ((List.pairwise_cons.1 h).1 q hq).1
      rw [convert_cons_cons, if_neg (not_le.2 haq)]
      by_cases hqb : q.count ≤ b.count
      · have hb : q = b := by
          rcases List.mem_cons.1 hq with rfl | hq
          · rfl
          · exact absurd ((List.pairwise_cons.1 h.tail).1 q hq).1 (not_lt.2 hqb)
        rw [if_pos hqb, hb, CalPoint.between_end h.head.2 h.head.1]
      · rw [if_neg hqb, ih h.tail q hq]

/-- No count gives less than the first point's weight. -/
theorem le_convert {rest : List CalPoint} : ∀ {a : CalPoint}, Rises (a :: rest) → ∀ c : Int,
    a.kg ≤ (convert c (a :: rest)).1 := by
  induction rest with
  | nil => exact fun _ _ => le_rfl
  | cons b rest ih =>
    intro a h c
    rw [convert_cons_cons]
    split_ifs with hca hcb
    · exact le_rfl
    · exact CalPoint.le_between h.head.2 (by omega)
    · exact h.head.2.trans (ih h.tail c)

theorem convert_mono {rest : List CalPoint} : ∀ {a : CalPoint}, Rises (a :: rest) → ∀ {c d : Int}, c ≤ d →
    (convert c (a :: rest)).1 ≤ (convert d (a :: rest)).1 := by
  induction rest with
  | nil => exact fun _ _ _ _ => le_rfl
  | cons b rest ih =>
    intro a h c d hcd
    by_cases hca : c ≤ a.count
    · rw [convert_of_le_first a _ hca]
      exact le_convert h d
    · rw [convert_cons_cons a b rest c, convert_cons_cons a b rest d, if_neg hca, if_neg (show ¬ d ≤ a.count by omega)]
      by_cases hdb : d ≤ b.count
      · rw [if_pos hdb, if_pos (hcd.trans hdb)]
        exact CalPoint.between_mono h.head.2 (by omega) hcd
      · rw [if_neg hdb]
        by_cases hcb : c ≤ b.count
        · rw [if_pos hcb]
          calc a.between b c ≤ a.between b b.count := CalPoint.between_mono h.head.2 (by omega) hcb
            _ = b.kg := CalPoint.between_end h.head.2 h.head.1
            _ ≤ _ := le_convert h.tail d
        · rw [if_neg hcb]
          exact ih h.tail hcd

/-- A count above every point's gives the last weight with overrange. -/
theorem convert_above {rest : List CalPoint} : ∀ {a : CalPoint}, Rises (a :: rest) → ∀ {c : Int},
    ((a :: rest).getLast (by simp)).count < c →
    convert c (a :: rest) = (((a :: rest).getLast (by simp)).kg, true) := by
  induction rest with
  | nil =>
    intro a _ c hc
    exact congrArg (Prod.mk a.kg) (decide_eq_true (p := a.count < c) hc)
  | cons b rest ih =>
    intro a h c hc
    rw [List.getLast_cons (by simp)] at hc ⊢
    have hlast : b.count ≤ ((b :: rest).getLast (by simp)).count := by
      rcases List.mem_cons.1 (List.getLast_mem (by simp : b :: rest ≠ [])) with he | hm
      · rw [he]
      · exact ((List.pairwise_cons.1 h.tail).1 _ hm).1.le
    have hab := h.head.1
    rw [convert_cons_cons, if_neg (by omega), if_neg (by omega), ih h.tail hc]

/-- Settles O58. -/
theorem conversionFollowsTheTable : Obligations.ConversionFollowsTheTable := by
  unfold Obligations.ConversionFollowsTheTable
  intro a rest h
  exact ⟨convert_point h, fun c hc => convert_of_le_first a rest hc.le, fun c hc => convert_above h hc,
    fun c d hcd => convert_mono h hcd⟩

/-! ## O52 -/

theorem BayRecord.derived_of_absent {r : BayRecord} (h : r.present = false) : r.derived = .empty := by
  simp [BayRecord.derived, h]

theorem BayRecord.derived_of_no_plan {r : BayRecord} (h : r.present = true) (hp : r.plan = none) : r.derived = .arrived := by
  simp [BayRecord.derived, h, hp]

/-- The lines of R144 from the third on. -/
theorem BayRecord.derived_of_plan {r : BayRecord} {pl : Plan} (h : r.present = true) (hp : r.plan = some pl) :
    r.derived =
      if r.causes.any then .paused
      else if !(r.last.any Report.inPosition) || !r.matched pl then .arrived
      else if pl.placedCount = 0 then .ready
      else if pl.placedCount < pl.placements.length then .loading
      else .complete := by
  simp only [BayRecord.derived, h, hp, Bool.not_true, Bool.false_eq_true, if_false]

theorem BayRecord.matched_iff {r : BayRecord} {rep : Report} (h : r.last = some rep) (pl : Plan) :
    r.matched pl = true ↔ pl.truck = none ∨ pl.truck = rep.truck := by
  cases ht : pl.truck with
  | none => simp [BayRecord.matched, ht]
  | some id =>
    simp only [BayRecord.matched, ht, h, Option.any_some, beq_iff_eq, reduceCtorEq, false_or]
    exact eq_comm

theorem BayRecord.derived_empty_iff (r : BayRecord) : r.derived = .empty ↔ r.present = false := by
  cases h : r.present with
  | false => simp [BayRecord.derived_of_absent h]
  | true =>
    cases hp : r.plan with
    | none => simp [BayRecord.derived_of_no_plan h hp]
    | some pl => rw [BayRecord.derived_of_plan h hp]; grind

theorem BayRecord.derived_paused_iff (r : BayRecord) :
    r.derived = .paused ↔ r.present = true ∧ r.plan.isSome = true ∧ r.causes.any = true := by
  cases h : r.present with
  | false => simp [BayRecord.derived_of_absent h]
  | true =>
    cases hp : r.plan with
    | none => simp [BayRecord.derived_of_no_plan h hp]
    | some pl => rw [BayRecord.derived_of_plan h hp]; grind

/-- Settles O52. -/
theorem bayStateFollowsItsFacts : Obligations.BayStateFollowsItsFacts := by
  unfold Obligations.BayStateFollowsItsFacts
  intro r
  have habsent : r.last.all (fun rep => !rep.present) = !r.present := by
    unfold BayRecord.present
    cases r.last <;> simp
  refine ⟨?_, r.derived_paused_iff, fun rep pl hl hrep hp hc => ?_, fun h hp => BayRecord.derived_of_no_plan h hp⟩
  · rw [r.derived_empty_iff, habsent, Bool.not_eq_true']
  · have hpresent : r.present = true := by simp [BayRecord.present, hl, hrep]
    have hinpos : r.last.any Report.inPosition = rep.inPosition := by simp [hl]
    have hm := BayRecord.matched_iff hl pl
    rw [BayRecord.derived_of_plan hpresent hp, hc, hinpos]
    refine ⟨?_, fun hin ht => ?_⟩
    · cases hmt : r.matched pl with
      | false => grind
      | true => grind
    · have hmt := hm.2 ht
      simp only [hin, hmt, Bool.not_true, Bool.or_self, Bool.false_eq_true, if_false]
      refine ⟨?_, ?_, ?_⟩
      all_goals
        split_ifs with h0 h1
        · simp [h0]
        · simp; omega
        · simp; omega

end Sys2Proof.Machine
end

section
/-! O36 and O37. The winner of an allocation pass and the placement test. -/

namespace Sys2Proof.Machine

/-! ## O36 -/

/-- A slot that a pass over some blocks looks at (R128, R129). -/
def SlotMap.Fits (m : SlotMap) (w : Wanted) (blocks : List (Fin 8)) (e : Nat × Slot) : Prop :=
  e.2.geo.block ∈ blocks ∧ m.candidate w e.2 = true

/-- The better of the best so far and a further slot (R131). -/
def SlotMap.better (m : SlotMap) (q : Search) (w : Wanted) (blocks : List (Fin 8)) (best : Option (Nat × Slot × Nat))
    (e : Nat × Slot) : Option (Nat × Slot × Nat) :=
  if blocks.contains e.2.geo.block && m.candidate w e.2 then
    let cost := m.cost q w e.2
    match best with
    | some (_, _, lowest) => if cost < lowest then some (e.1, e.2, cost) else best
    | none => some (e.1, e.2, cost)
  else best

theorem SlotMap.winner_eq_foldl (m : SlotMap) (q : Search) (w : Wanted) (blocks : List (Fin 8)) :
    m.winner q w blocks = m.slots.foldl (m.better q w blocks) none := rfl

/-- An entry of a list of slots has the lowest cost, and of equal costs the lowest index. -/
def SlotMap.IsBest (m : SlotMap) (q : Search) (w : Wanted) (blocks : List (Fin 8)) (l : List (Nat × Slot)) :
    Option (Nat × Slot × Nat) → Prop
  | none => ∀ e ∈ l, ¬ m.Fits w blocks e
  | some (i, s, cost) => (i, s) ∈ l ∧ m.Fits w blocks (i, s) ∧ cost = m.cost q w s
      ∧ ∀ e ∈ l, m.Fits w blocks e → cost < m.cost q w e.2 ∨ (cost = m.cost q w e.2 ∧ i ≤ e.1)

theorem SlotMap.better_of_fits {m : SlotMap} {q : Search} {w : Wanted} {blocks : List (Fin 8)} {e : Nat × Slot}
    (h : m.Fits w blocks e) (best : Option (Nat × Slot × Nat)) :
    m.better q w blocks best e =
      match best with
      | some (i, s, lowest) => if m.cost q w e.2 < lowest then some (e.1, e.2, m.cost q w e.2) else some (i, s, lowest)
      | none => some (e.1, e.2, m.cost q w e.2) := by
  have hc : (blocks.contains e.2.geo.block && m.candidate w e.2) = true := by
    rw [Bool.and_eq_true, List.contains_iff_mem]
    exact h
  rw [SlotMap.better, if_pos hc]
  cases best <;> rfl

theorem SlotMap.better_of_not_fits {m : SlotMap} {q : Search} {w : Wanted} {blocks : List (Fin 8)} {e : Nat × Slot}
    (h : ¬ m.Fits w blocks e) (best : Option (Nat × Slot × Nat)) : m.better q w blocks best e = best := by
  refine if_neg fun hc => h ?_
  rw [Bool.and_eq_true, List.contains_iff_mem] at hc
  exact hc

/-- One slot further, of a higher index than all before it. -/
theorem SlotMap.isBest_better {m : SlotMap} {q : Search} {w : Wanted} {blocks : List (Fin 8)} {l : List (Nat × Slot)}
    {e : Nat × Slot} (hl : ∀ a ∈ l, a.1 < e.1) {best : Option (Nat × Slot × Nat)} (h : m.IsBest q w blocks l best) :
    m.IsBest q w blocks (l ++ [e]) (m.better q w blocks best e) := by
  have hsplit : ∀ {P : Nat × Slot → Prop}, (∀ a ∈ l, P a) → P e → ∀ a ∈ l ++ [e], P a := by
    intro P hbefore he a ha
    rcases List.mem_append.1 ha with ha | ha
    · exact hbefore a ha
    · rw [List.mem_singleton.1 ha]
      exact he
  by_cases hfit : m.Fits w blocks e
  · rw [SlotMap.better_of_fits hfit]
    cases best with
    | none =>
      exact ⟨by simp, hfit, rfl, hsplit (fun a ha hfa => absurd hfa (h a ha)) fun _ => .inr ⟨rfl, le_rfl⟩⟩
    | some b =>
      obtain ⟨i, s, lowest⟩ := b
      obtain ⟨hmem, hfits, hcost, hlow⟩ := h
      by_cases hlt : m.cost q w e.2 < lowest
      · simp only [if_pos hlt]
        refine ⟨by simp, hfit, rfl, hsplit (fun a ha hfa => .inl ?_) fun _ => .inr ⟨rfl, le_rfl⟩⟩
        rcases hlow a ha hfa with h | h <;> omega
      · simp only [if_neg hlt]
        refine ⟨List.mem_append_left _ hmem, hfits, hcost, hsplit hlow fun _ => ?_⟩
        have := hl _ hmem
        omega
  · rw [SlotMap.better_of_not_fits hfit]
    cases best with
    | none => exact hsplit h hfit
    | some b =>
      obtain ⟨hmem, hfits, hcost, hlow⟩ := h
      exact ⟨List.mem_append_left _ hmem, hfits, hcost, hsplit hlow fun hf => absurd hf hfit⟩

theorem SlotMap.isBest_foldl (m : SlotMap) (q : Search) (w : Wanted) (blocks : List (Fin 8)) (l : List (Nat × Slot)) :
    (l.Pairwise fun a b => a.1 < b.1) → m.IsBest q w blocks l (l.foldl (m.better q w blocks) none) := by
  induction l using List.reverseRecOn with
  | nil => exact fun _ _ he => absurd he List.not_mem_nil
  | append_singleton l e ih =>
    intro hs
    obtain ⟨hl, _, hlt⟩ := List.pairwise_append.1 hs
    rw [List.foldl_append]
    exact SlotMap.isBest_better (fun a ha => hlt a ha e List.mem_cons_self) (ih hl)

theorem SlotMap.winner_isBest {m : SlotMap} (hm : m.Sorted) (q : Search) (w : Wanted) (blocks : List (Fin 8)) :
    m.IsBest q w blocks m.slots (m.winner q w blocks) := by
  rw [m.winner_eq_foldl]
  exact m.isBest_foldl q w blocks m.slots hm

/-- There is one best entry. -/
theorem SlotMap.IsBest.unique {m : SlotMap} (hm : m.Sorted) {q : Search} {w : Wanted} {blocks : List (Fin 8)}
    {a b : Option (Nat × Slot × Nat)} (ha : m.IsBest q w blocks m.slots a) (hb : m.IsBest q w blocks m.slots b) : a = b := by
  cases a with
  | none =>
    cases b with
    | none => rfl
    | some y => exact absurd hb.2.1 (ha _ hb.1)
  | some x =>
    cases b with
    | none => exact absurd ha.2.1 (hb _ ha.1)
    | some y =>
      obtain ⟨i, s, c⟩ := x
      obtain ⟨j, t, d⟩ := y
      obtain ⟨hma, hfa, rfl, hlowa⟩ := ha
      obtain ⟨hmb, hfb, rfl, hlowb⟩ := hb
      have h1 := hlowa _ hmb hfb
      have h2 := hlowb _ hma hfa
      have hij : i = j := by simp only at h1 h2; omega
      subst hij
      have hst : some s = some t := (slotFind_of_mem i s _ hm hma).symm.trans (slotFind_of_mem i t _ hm hmb)
      cases hst
      rfl

/-- Settles O36. -/
theorem winnerHasTheLowestCost : Obligations.WinnerHasTheLowestCost := by
  unfold Obligations.WinnerHasTheLowestCost
  intro m q w blocks hm
  have hbest := SlotMap.winner_isBest hm q w blocks
  refine ⟨fun i s cost => ⟨fun h => ?_, fun ⟨⟨hmem, hblock, hcand⟩, hcost, hlow⟩ => ?_⟩, fun h => ?_, fun h => ?_⟩
  · rw [h] at hbest
    obtain ⟨hmem, hfits, hcost, hlow⟩ := hbest
    exact ⟨⟨hmem, hfits⟩, hcost, fun e he => hlow e he.1 he.2⟩
  · have hother : m.IsBest q w blocks m.slots (some (i, s, cost)) :=
      ⟨hmem, ⟨hblock, hcand⟩, hcost, fun e he hf => hlow e ⟨he, hf⟩⟩
    exact hbest.unique hm hother
  · rw [h] at hbest
    exact fun e he => hbest e he.1 he.2
  · exact hbest.unique (b := none) hm fun e he hf => h e ⟨he, hf⟩

/-! ## O37 -/

theorem fits_iff (size : Option Nat) (limit : Nat) : fits size limit = true ↔ ∀ n, size = some n → n ≤ limit := by
  cases size <;> simp [fits]

/-- The stacking rules hold (R102). -/
def StacksOn (overhang : Nat) (coil a b : Coil) : Prop :=
  a.quality = .good ∧ b.quality = .good ∧ coil.quality = .good ∧ coil.weight ≤ a.weight ∧ coil.weight ≤ b.weight
    ∧ ∃ d da db : Nat, coil.diameter = some d ∧ a.diameter = some da ∧ b.diameter = some db
      ∧ d ≤ da + overhang ∧ d ≤ db + overhang ∧ coil.group ≤ a.group ∧ coil.group ≤ b.group

theorem stackTest_eq_none_iff (overhang : Nat) (coil a b : Coil) :
    stackTest overhang coil a b = none ↔ StacksOn overhang coil a b := by
  unfold stackTest StacksOn
  split
  next hq => simp only [reduceCtorEq, false_iff]; tauto
  next hq =>
    split
    next hw => simp only [reduceCtorEq, false_iff]; omega
    next hw =>
      split
      next d da db hd hda hdb =>
        have hmin : min da db + overhang < d ↔ ¬ (d ≤ da + overhang ∧ d ≤ db + overhang) := by omega
        simp only [hd, hda, hdb, Option.some.injEq, exists_and_left, exists_eq_left']
        grind
      next hsizes =>
        simp only [reduceCtorEq, false_iff]
        rintro ⟨_, _, _, _, _, d, da, db, hd, hda, hdb, _⟩
        exact hsizes d da db hd hda hdb

theorem SlotMap.tierTest_eq_none_iff (m : SlotMap) (s : Slot) (coil : Coil) :
    m.tierTest s coil = none ↔ ∀ i j, s.geo.tier = .upper i j → ∃ a b : Coil,
      m.standing i = some a ∧ m.standing j = some b ∧ StacksOn m.blocks[s.geo.block].overhang coil a b := by
  unfold SlotMap.tierTest
  cases ht : s.geo.tier with
  | floor => simp
  | upper i j =>
    simp only [Tier.upper.injEq]
    cases hi : m.standing i with
    | none => simp [hi]
    | some a =>
      cases hj : m.standing j with
      | none => simp [hj]
      | some b =>
        simp only [stackTest_eq_none_iff]
        constructor
        · rintro h _ _ ⟨rfl, rfl⟩
          exact ⟨a, b, hi, hj, h⟩
        · intro h
          obtain ⟨a', b', ha, hb, hs⟩ := h i j ⟨rfl, rfl⟩
          cases hi.symm.trans ha
          cases hj.symm.trans hb
          exact hs

theorem SlotMap.placementTest_eq_none_iff (m : SlotMap) (s : Slot) (coil : Coil) (load : Nat) :
    m.placementTest s coil load = none ↔
      (fits coil.diameter s.geo.maxDiameter = true ∧ fits coil.width s.geo.maxWidth = true) ∧ m.tierTest s coil = none
        ∧ load + coil.weight ≤ m.blocks[s.geo.block].limit := by
  unfold SlotMap.placementTest
  rw [← Bool.and_eq_true]
  cases fits coil.diameter s.geo.maxDiameter && fits coil.width s.geo.maxWidth with
  | false => simp
  | true => cases m.tierTest s coil <;> simp

/-- Settles O37. -/
theorem placementTestFollowsTheRules : Obligations.PlacementTestFollowsTheRules := by
  unfold Obligations.PlacementTestFollowsTheRules
  intro m s coil load
  rw [m.placementTest_eq_none_iff, fits_iff, fits_iff, m.tierTest_eq_none_iff, and_assoc]
  have hstack : ∀ i j, (∃ a b : Coil, m.standing i = some a ∧ m.standing j = some b
        ∧ StacksOn m.blocks[s.geo.block].overhang coil a b) ↔
      ∃ (a b : Coil) (d da db : Nat),
        m.standing i = some a ∧ m.standing j = some b ∧ a.quality = .good ∧ b.quality = .good ∧ coil.quality = .good
          ∧ coil.weight ≤ a.weight ∧ coil.weight ≤ b.weight
          ∧ coil.diameter = some d ∧ a.diameter = some da ∧ b.diameter = some db
          ∧ d ≤ da + m.blocks[s.geo.block].overhang ∧ d ≤ db + m.blocks[s.geo.block].overhang
          ∧ coil.group ≤ a.group ∧ coil.group ≤ b.group := by
    intro i j
    unfold StacksOn
    constructor
    · rintro ⟨a, b, ha, hb, qa, qb, qc, wa, wb, d, da, db, h⟩
      exact ⟨a, b, d, da, db, ha, hb, qa, qb, qc, wa, wb, h⟩
    · rintro ⟨a, b, d, da, db, ha, hb, qa, qb, qc, wa, wb, h⟩
      exact ⟨a, b, ha, hb, qa, qb, qc, wa, wb, d, da, db, h⟩
  simp only [hstack]

end Sys2Proof.Machine
end

section
/-! Operations that change each zone of a list by itself, and what an operation that keeps the tables leaves standing. -/

namespace Sys2Proof.Machine

/-! ## Tables kept -/

theorem Part.Keeps.sameTables {S : Scope} {p q : Part} (h : p.Keeps S q) : p.SameTables q where
  entries := h.entries
  zones := h.zones
  entryPoints := h.entryPoints
  blocks := h.blocks
  geometry := h.geometry
  routing := h.routing
  bayEntries := h.bayEntries
  params := h.params
  mode := h.mode
  clock := h.clock
  station := h.link.station

/-! ## Frames taken -/

/-- A management frame that fits its form is served (R176). -/
theorem served_of_request {s : State} {k : Kind} {f : Frame} (h : s.Request k f) (hk : k.isManagement = true)
    {want : List Byte → Bool} (hw : want f.payload = true) (hform : formFits k f.payload = true) (serve : Frame → Part → Part) :
    s.part.manage k want serve = serve f s.part.dropSup := by
  rw [manage_of_request h hk want hw, if_pos hform]

/-- A management frame of the slot map that fits its form is served when no request waits (R118, R176). -/
theorem servedSlots_of_request {s : State} {k : Kind} {f : Frame} (h : s.Request k f) (hk : k.isManagement = true)
    {want : List Byte → Bool} (hw : want f.payload = true) (hform : formFits k f.payload = true) (serve : Frame → Part → Part)
    (hq : s.Quiet) : s.part.manageSlots k want serve = serve f s.part.dropSup := by
  rw [manageSlots_of_request h hk want hw serve hq, if_pos hform]

/-! ## Zones -/

/-- The part with its zones replaced. -/
def Part.withZones (p : Part) (zs : Vector Zone 32) : Part := { p with arbiter := { p.arbiter with zones := zs } }

theorem Part.zone_fin (p : Part) (k : Fin 32) : p.zone k.val = p.arbiter.zones[k] := dif_pos k.isLt

theorem Part.setZone_eq_withZones (p : Part) (k : Fin 32) (z : Zone) :
    p.setZone k.val z = p.withZones (p.arbiter.zones.set k z) := dif_pos k.isLt

theorem Part.withZones_zone (p : Part) (zs : Vector Zone 32) (k : Fin 32) : (p.withZones zs).zone k.val = zs[k] :=
  Part.zone_fin _ k

theorem Part.withZones_self (p : Part) : p.withZones p.arbiter.zones = p := rfl

theorem Part.setZone_self (p : Part) (k : Nat) : p.setZone k (p.zone k) = p := by
  by_cases hk : k < 32
  · rw [Part.setZone_eq_withZones p ⟨k, hk⟩, show p.zone k = p.arbiter.zones[k] from dif_pos hk]
    exact congrArg p.withZones (Vector.set_getElem_self hk)
  · exact p.setZone_out k _ hk

/-- Each zone of a list is changed by itself. -/
theorem Part.foldl_zones {f : Part → Nat → Part} {g : Fin 32 → Zone} (p : Part) (l : List Nat) (hnd : l.Nodup)
    (hl : ∀ k ∈ l, k < 32)
    (hf : ∀ (zs : Vector Zone 32) (k : Fin 32), k.val ∈ l → zs[k] = p.arbiter.zones[k] →
      f (p.withZones zs) k.val = p.withZones (zs.set k (g k))) :
    l.foldl f p = p.withZones (Vector.ofFn fun k : Fin 32 => if k.val ∈ l then g k else p.arbiter.zones[k]) := by
  induction l using List.reverseRecOn with
  | nil =>
    refine (p.withZones_self).symm.trans (congrArg p.withZones ?_)
    ext i hi
    all_goals simp
  | append_singleton l k ih =>
    obtain ⟨hndl, _, hne⟩ := List.nodup_append.1 hnd
    have hk : k < 32 := hl k (by simp)
    have hkl : k ∉ l := fun h => hne k h k (by simp) rfl
    have hstep := ih hndl (fun j hj => hl j (by simp [hj])) fun zs j hj hz => hf zs j (by simp [hj]) hz
    rw [List.foldl_append, hstep, List.foldl_cons, List.foldl_nil]
    refine (hf _ ⟨k, hk⟩ (by simp) ?_).trans (congrArg p.withZones ?_)
    · simp [hkl]
    · refine Vector.ext fun i hi => ?_
      simp only [Fin.getElem_fin, Vector.getElem_set, Vector.getElem_ofFn, List.mem_append, List.mem_singleton]
      by_cases hik : k = i
      · subst hik
        simp
      · simp [hik, Ne.symm hik]

theorem mem_maskZones_iff (m : ZoneMask) (k : Nat) : k ∈ maskZones m ↔ k < 32 ∧ m.getLsbD k = true := by
  simp [maskZones, zoneList]

theorem maskZones_nodup (m : ZoneMask) : (maskZones m).Nodup := List.nodup_range.filter _

/-- A walk over the zones of the runway that stops at those of a mask is one over the zones of the mask. -/
theorem foldl_zoneList_mask {α : Type} (m : ZoneMask) (f : α → Nat → α) (a : α) :
    zoneList.foldl (fun a k => if m.getLsbD k then f a k else a) a = (maskZones m).foldl f a := by
  rw [maskZones, List.foldl_filter]

/-- Each zone of a mask is changed by itself. -/
theorem Part.foldl_maskZones {f : Part → Nat → Part} {g : Fin 32 → Zone} (p : Part) (m : ZoneMask)
    (hf : ∀ (zs : Vector Zone 32) (k : Fin 32), m.getLsbD k.val = true → zs[k] = p.arbiter.zones[k] →
      f (p.withZones zs) k.val = p.withZones (zs.set k (g k))) :
    (maskZones m).foldl f p =
      p.withZones (Vector.ofFn fun k : Fin 32 => if m.getLsbD k.val then g k else p.arbiter.zones[k]) := by
  rw [p.foldl_zones (g := g) _ (maskZones_nodup m) (fun k hk => ((mem_maskZones_iff m k).1 hk).1)
    fun zs k hk hz => hf zs k ((mem_maskZones_iff m k).1 hk).2 hz]
  simp only [mem_maskZones_iff, Fin.is_lt, true_and]

theorem BaySet.put_self {s : BaySet} {b : Fin 6} {on : Bool} (h : s[b] = on) : BaySet.put s b on = s := by
  rw [← h]
  exact Vector.set_getElem_self b.isLt

/-- The bay part leaves the zones of a mask that nobody waits for. -/
theorem Part.clearBayHold_of_no_waiters (p : Part) (b : Fin 6) (m : ZoneMask)
    (h : ∀ k : Fin 32, m.getLsbD k.val = true → p.arbiter.zones[k].waiters = []) :
    p.clearBayHold b m = p.withZones (Vector.ofFn fun k : Fin 32 =>
      if m.getLsbD k.val then { p.arbiter.zones[k] with bayHold := BaySet.put p.arbiter.zones[k].bayHold b false }
      else p.arbiter.zones[k]) := by
  rw [Part.clearBayHold, foldl_zoneList_mask]
  refine p.foldl_maskZones m fun zs k hk hz => ?_
  have hzone : (p.withZones zs).zone k.val = p.arbiter.zones[k] := ((p.withZones_zone zs k)).trans hz
  unfold Part.unholdZone
  rw [hzone]
  split
  next =>
    rw [Part.handOn_of_no_waiters, Part.setZone_eq_withZones]
    · rfl
    · rw [Part.setZone_zone _ _ _ k.isLt]
      exact h k hk
  next hb =>
    rw [BaySet.put_self (Bool.eq_false_iff.2 hb)]
    refine congrArg p.withZones (Eq.symm ?_)
    rw [← hz]
    exact Vector.set_getElem_self k.isLt

/-- The bay part joins the defined zones of a mask. -/
theorem Part.setBayHold_eq (p : Part) (b : Fin 6) (m : ZoneMask) :
    p.setBayHold b m = p.withZones (Vector.ofFn fun k : Fin 32 =>
      if m.getLsbD k.val then
        if p.arbiter.zones[k].defined then { p.arbiter.zones[k] with bayHold := BaySet.put p.arbiter.zones[k].bayHold b true }
        else p.arbiter.zones[k]
      else p.arbiter.zones[k]) := by
  rw [Part.setBayHold, foldl_zoneList_mask]
  refine p.foldl_maskZones m fun zs k hk hz => ?_
  have hzone : (p.withZones zs).zone k.val = p.arbiter.zones[k] := ((p.withZones_zone zs k)).trans hz
  unfold Part.holdZone
  rw [hzone]
  split
  next => rw [Part.setZone_eq_withZones]; rfl
  next =>
    refine congrArg p.withZones (Eq.symm ?_)
    rw [← hz]
    exact Vector.set_getElem_self k.isLt

end Sys2Proof.Machine
end

section
/-! O26. Holds and blocks of zones. -/

namespace Sys2Proof.Machine

/-- No zone of a mask is undefined. -/
theorem Part.undefinedZone_eq_none {p : Part} {m : ZoneMask}
    (h : ∀ k : Fin 32, m.getLsbD k.val = true → p.arbiter.zones[k].defined = true) : p.undefinedZone m = none := by
  rw [Part.undefinedZone, List.find?_eq_none]
  intro k hk
  obtain ⟨hlt, hm⟩ := (mem_maskZones_iff m k).1 hk
  rw [show p.zone k = p.arbiter.zones[(⟨k, hlt⟩ : Fin 32)] from p.zone_fin ⟨k, hlt⟩, h ⟨k, hlt⟩ hm]
  exact Bool.not_eq_true _ ▸ rfl

/-- A frame with a mask of defined zones has its effect. -/
theorem serveMask_of_defined {data : Nat → List Byte} {effect : ZoneMask → Part → Part} {f : Frame} {p : Part} {m : ZoneMask}
    (hr : readMask f.payload = some m)
    (h : ∀ k : Fin 32, m.getLsbD k.val = true → p.arbiter.zones[k].defined = true) :
    serveMask data effect f p = effect m p := by
  simp only [serveMask, hr, Part.undefinedZone_eq_none h]

/-- A value written to one field of each zone of a mask. -/
theorem Part.foldl_setZone (p : Part) (m : ZoneMask) (change : Zone → Zone) :
    (maskZones m).foldl (fun p k => p.setZone k (change (p.zone k))) p =
      p.withZones (Vector.ofFn fun k : Fin 32 =>
        if m.getLsbD k.val then change p.arbiter.zones[k] else p.arbiter.zones[k]) := by
  refine p.foldl_maskZones m fun zs k _ hz => ?_
  rw [Part.setZone_eq_withZones, (p.withZones_zone zs k).trans hz]
  rfl

theorem Part.foldl_hold (p : Part) (m : ZoneMask) (seconds : Nat) :
    (maskZones m).foldl (fun p k => p.setZone k { p.zone k with hold := some (p.holdPart seconds) }) p =
      p.withZones (Vector.ofFn fun k : Fin 32 =>
        if m.getLsbD k.val then { p.arbiter.zones[k] with hold := some (p.holdPart seconds) } else p.arbiter.zones[k]) := by
  refine p.foldl_maskZones m fun zs k _ hz => ?_
  rw [Part.setZone_eq_withZones, (p.withZones_zone zs k).trans hz]
  rfl

/-- The management part leaves the zones of a mask that nobody waits for. -/
theorem Part.foldl_endHold (p : Part) (m : ZoneMask)
    (h : ∀ k : Fin 32, m.getLsbD k.val = true → p.arbiter.zones[k].waiters = []) :
    (maskZones m).foldl (fun p k => p.endHold k) p =
      p.withZones (Vector.ofFn fun k : Fin 32 =>
        if m.getLsbD k.val then { p.arbiter.zones[k] with hold := none } else p.arbiter.zones[k]) := by
  refine p.foldl_maskZones m fun zs k hk hz => ?_
  have hzone : (p.withZones zs).zone k.val = p.arbiter.zones[k] := (p.withZones_zone zs k).trans hz
  unfold Part.endHold
  rw [hzone]
  split
  next =>
    rw [Part.handOn_of_no_waiters, Part.setZone_eq_withZones]
    · rfl
    · rw [Part.setZone_zone _ _ _ k.isLt]
      exact h k hk
  next hnone =>
    have hsame : ({ p.arbiter.zones[k] with hold := none } : Zone) = p.arbiter.zones[k] := by
      rw [← Option.not_isSome_iff_eq_none.1 hnone]
    refine congrArg p.withZones (Eq.symm ?_)
    rw [hsame, ← hz]
    exact Vector.set_getElem_self k.isLt

/-- A zone of a mask that nobody waits for has no claim to refuse. -/
theorem Part.foldl_refuseWaiters (p : Part) (m : ZoneMask)
    (h : ∀ k : Fin 32, m.getLsbD k.val = true → p.arbiter.zones[k].waiters = []) :
    (maskZones m).foldl (fun p k => p.refuseWaiters k) p = p := by
  have hstep : ∀ l : List Nat, (∀ k ∈ l, k ∈ maskZones m) → l.foldl (fun p k => p.refuseWaiters k) p = p := by
    intro l
    induction l with
    | nil => exact fun _ => rfl
    | cons k ks ih =>
      intro hl
      obtain ⟨hlt, hm⟩ := (mem_maskZones_iff m k).1 (hl k List.mem_cons_self)
      have hk : (p.zone k).waiters = [] := by
        rw [show p.zone k = p.arbiter.zones[(⟨k, hlt⟩ : Fin 32)] from p.zone_fin ⟨k, hlt⟩]
        exact h ⟨k, hlt⟩ hm
      have hsame : p.refuseWaiters k = p := by rw [Part.refuseWaiters, hk]; rfl
      rw [List.foldl_cons, hsame]
      exact ih fun j hj => hl j (List.mem_cons_of_mem _ hj)
  exact hstep _ fun _ hk => hk

theorem Part.blockZones_of_no_waiters (p : Part) (m : ZoneMask)
    (h : ∀ k : Fin 32, m.getLsbD k.val = true → p.arbiter.zones[k].waiters = []) :
    p.blockZones m = p.withZones (Vector.ofFn fun k : Fin 32 =>
      if m.getLsbD k.val then { p.arbiter.zones[k] with blocked := true } else p.arbiter.zones[k]) := by
  rw [Part.blockZones, p.foldl_setZone m fun z => { z with blocked := true }]
  refine Part.foldl_refuseWaiters _ m fun k hk => ?_
  simp only [Part.withZones, Fin.getElem_fin, Vector.getElem_ofFn, hk, if_true]
  exact h k hk

/-- Settles O26. -/
theorem zoneHoldsAndBlocks : Obligations.ZoneHoldsAndBlocks := by
  unfold Obligations.ZoneHoldsAndBlocks
  intro s f m hq hdef onMask
  refine ⟨fun k till hr hhold hpassed => ?_, fun seconds hreq hread => ?_, fun hreq hread hw => ?_,
    fun k hreq hread hone hhold => ?_, fun hreq hread hfree => ?_, fun hreq hread => ?_⟩
  · rw [exec_holdExpiry]
    refine State.act_eq hr ?_
    have hzone : (s.part.zone k).hold = some (.till till) := by rw [Part.zone_fin]; exact hhold
    have hdue : s.part.holdDue k = true := by simp only [Part.holdDue, hzone]; exact hpassed
    rw [Part.expireHoldOf, whenDue_of_quiet hq]
    simp only [hdue, if_true, Part.expireHold, hzone]
    rw [Part.setZone_zone _ _ _ k.isLt, Part.zone_fin]
    simp only [bit, Nat.pow_zero]
  · rw [exec_hold]
    refine State.act_eq hreq.1 ?_
    have hform : formFits .hold f.payload = true := by simp [formFits, hread]
    rw [served_of_request hreq rfl rfl hform]
    simp only [serveHold, hread, Part.undefinedZone_eq_none (p := s.part.dropSup) hdef, Part.foldl_hold]
    rfl
  · rw [exec_unhold]
    refine State.act_eq hreq.1 ?_
    have hform : formFits .unhold f.payload = true := by simp [formFits, hread]
    rw [served_of_request hreq rfl rfl hform]
    simp only [dropSup_await hq, serveUnhold, serveMask_of_defined (p := s.part.dropSup) hread hdef]
    rw [s.part.dropSup.foldl_endHold m hw]
    rfl
  · rw [exec_unhold]
    refine State.act_eq hreq.1 ?_
    have hform : formFits .unhold f.payload = true := by simp [formFits, hread]
    rw [served_of_request hreq rfl rfl hform]
    have hzone : s.part.dropSup.zone k.val = s.part.arbiter.zones[k] := Part.zone_fin _ k
    simp only [dropSup_await hq, serveUnhold, serveMask_of_defined (p := s.part.dropSup) hread hdef, hone, List.foldl_cons,
      List.foldl_nil, Part.endHold, hzone, hhold, if_true]
  · rw [exec_block]
    refine State.act_eq hreq.1 ?_
    have hform : formFits .block f.payload = true := by simp [formFits, hread]
    rw [served_of_request hreq rfl rfl hform]
    have hnone : ((maskZones m).find? fun k => (s.part.dropSup.zone k).grant.isSome) = none := by
      rw [List.find?_eq_none]
      intro k hk
      obtain ⟨hlt, hm⟩ := (mem_maskZones_iff m k).1 hk
      rw [show s.part.dropSup.zone k = s.part.arbiter.zones[(⟨k, hlt⟩ : Fin 32)] from Part.zone_fin _ ⟨k, hlt⟩,
        (hfree ⟨k, hlt⟩ hm).1]
      exact Bool.false_ne_true
    simp only [dropSup_await hq, serveBlock, serveMask_of_defined (p := s.part.dropSup) hread hdef, hnone]
    rw [s.part.dropSup.blockZones_of_no_waiters m fun k hk => (hfree k hk).2]
    rfl
  · rw [exec_unblock]
    refine State.act_eq hreq.1 ?_
    have hform : formFits .unblock f.payload = true := by simp [formFits, hread]
    rw [served_of_request hreq rfl rfl hform]
    simp only [serveUnblock, serveMask_of_defined (p := s.part.dropSup) hread hdef]
    rw [Part.foldl_setZone _ m fun z => { z with blocked := false }]
    rfl

end Sys2Proof.Machine
end

section
/-! What notices, verdicts, replies, the end of an order and a stop request leave untouched. -/

namespace Sys2Proof.Machine

/-! ## Notices, verdicts and replies -/

theorem Part.notify_form (p : Part) (k : NoticeKind) (subject v1 v2 v3 : Nat) :
    ∃ (l : Link) (ns : List Notice) (lost : Nat),
      p.notify k subject v1 v2 v3 = { p with link := l, mgmt := { p.mgmt with notices := ns, lost := lost } } := by
  unfold Part.notify
  simp only []
  split
  · exact ⟨_, p.mgmt.notices, p.mgmt.lost, rfl⟩
  · split
    · exact ⟨p.link, _, p.mgmt.lost, rfl⟩
    · exact ⟨p.link, _, _, rfl⟩

theorem Part.giveVerdict_form (p : Part) (v : Verdict) :
    ∃ (l : Link) (vs : List Verdict), p.giveVerdict v = { p with link := l, gate := { p.gate with verdicts := vs } } := by
  unfold Part.giveVerdict
  split
  · exact ⟨_, p.gate.verdicts, rfl⟩
  · exact ⟨p.link, _, rfl⟩

theorem Part.answerFrame_form (p : Part) (f : Frame) (a : Answer) (why : Option Reason) (data : List Byte) :
    ∃ (l : Link) (r : Option ReplyBody), p.answerFrame f a why data = { p with link := l, mgmt := { p.mgmt with reply := r } } := by
  unfold Part.answerFrame Part.giveReply
  split
  · exact ⟨_, p.mgmt.reply, rfl⟩
  · exact ⟨p.link, _, rfl⟩

section Notify
variable (p : Part) (k : NoticeKind) (a v1 v2 v3 : Nat)

@[simp] theorem Part.notify_tracker : (p.notify k a v1 v2 v3).tracker = p.tracker := by
  obtain ⟨l, ns, n, h⟩ := p.notify_form k a v1 v2 v3; rw [h]
@[simp] theorem Part.notify_params : (p.notify k a v1 v2 v3).params = p.params := by
  obtain ⟨l, ns, n, h⟩ := p.notify_form k a v1 v2 v3; rw [h]
@[simp] theorem Part.notify_arbiter : (p.notify k a v1 v2 v3).arbiter = p.arbiter := by
  obtain ⟨l, ns, n, h⟩ := p.notify_form k a v1 v2 v3; rw [h]
@[simp] theorem Part.notify_hooks : (p.notify k a v1 v2 v3).hooks = p.hooks := by
  obtain ⟨l, ns, n, h⟩ := p.notify_form k a v1 v2 v3; rw [h]
@[simp] theorem Part.notify_slots : (p.notify k a v1 v2 v3).slots = p.slots := by
  obtain ⟨l, ns, n, h⟩ := p.notify_form k a v1 v2 v3; rw [h]
@[simp] theorem Part.notify_engine : (p.notify k a v1 v2 v3).engine = p.engine := by
  obtain ⟨l, ns, n, h⟩ := p.notify_form k a v1 v2 v3; rw [h]
@[simp] theorem Part.notify_bays : (p.notify k a v1 v2 v3).bays = p.bays := by
  obtain ⟨l, ns, n, h⟩ := p.notify_form k a v1 v2 v3; rw [h]
@[simp] theorem Part.notify_mode : (p.notify k a v1 v2 v3).mgmt.mode = p.mgmt.mode := by
  obtain ⟨l, ns, n, h⟩ := p.notify_form k a v1 v2 v3; rw [h]
@[simp] theorem Part.notify_clock : (p.notify k a v1 v2 v3).mgmt.clock = p.mgmt.clock := by
  obtain ⟨l, ns, n, h⟩ := p.notify_form k a v1 v2 v3; rw [h]

end Notify

section Verdict
variable (p : Part) (c : Fin 4) (tag : Nat) (k : VerdictKind) (why : Option Reason) (x y : Nat)

@[simp] theorem Part.verdict_tracker : (p.verdict c tag k why x y).tracker = p.tracker := by
  obtain ⟨l, vs, h⟩ := p.giveVerdict_form ⟨c, tag, k, why, x, y⟩; rw [Part.verdict, h]
@[simp] theorem Part.verdict_params : (p.verdict c tag k why x y).params = p.params := by
  obtain ⟨l, vs, h⟩ := p.giveVerdict_form ⟨c, tag, k, why, x, y⟩; rw [Part.verdict, h]
@[simp] theorem Part.verdict_arbiter : (p.verdict c tag k why x y).arbiter = p.arbiter := by
  obtain ⟨l, vs, h⟩ := p.giveVerdict_form ⟨c, tag, k, why, x, y⟩; rw [Part.verdict, h]
@[simp] theorem Part.verdict_orders : (p.verdict c tag k why x y).gate.orders = p.gate.orders := by
  obtain ⟨l, vs, h⟩ := p.giveVerdict_form ⟨c, tag, k, why, x, y⟩; rw [Part.verdict, h]
@[simp] theorem Part.verdict_latches : (p.verdict c tag k why x y).gate.latches = p.gate.latches := by
  obtain ⟨l, vs, h⟩ := p.giveVerdict_form ⟨c, tag, k, why, x, y⟩; rw [Part.verdict, h]
@[simp] theorem Part.verdict_lines : (p.verdict c tag k why x y).lines = p.lines := by
  obtain ⟨l, vs, h⟩ := p.giveVerdict_form ⟨c, tag, k, why, x, y⟩; rw [Part.verdict, h]
@[simp] theorem Part.verdict_hooks : (p.verdict c tag k why x y).hooks = p.hooks := by
  obtain ⟨l, vs, h⟩ := p.giveVerdict_form ⟨c, tag, k, why, x, y⟩; rw [Part.verdict, h]
@[simp] theorem Part.verdict_slots : (p.verdict c tag k why x y).slots = p.slots := by
  obtain ⟨l, vs, h⟩ := p.giveVerdict_form ⟨c, tag, k, why, x, y⟩; rw [Part.verdict, h]
@[simp] theorem Part.verdict_engine : (p.verdict c tag k why x y).engine = p.engine := by
  obtain ⟨l, vs, h⟩ := p.giveVerdict_form ⟨c, tag, k, why, x, y⟩; rw [Part.verdict, h]
@[simp] theorem Part.verdict_bays : (p.verdict c tag k why x y).bays = p.bays := by
  obtain ⟨l, vs, h⟩ := p.giveVerdict_form ⟨c, tag, k, why, x, y⟩; rw [Part.verdict, h]
@[simp] theorem Part.verdict_mgmt : (p.verdict c tag k why x y).mgmt = p.mgmt := by
  obtain ⟨l, vs, h⟩ := p.giveVerdict_form ⟨c, tag, k, why, x, y⟩; rw [Part.verdict, h]

end Verdict

section Answer
variable (p : Part) (f : Frame) (a : Answer) (why : Option Reason) (data : List Byte)

@[simp] theorem Part.answerFrame_tracker : (p.answerFrame f a why data).tracker = p.tracker := by
  obtain ⟨l, r, h⟩ := p.answerFrame_form f a why data; rw [h]
@[simp] theorem Part.answerFrame_params : (p.answerFrame f a why data).params = p.params := by
  obtain ⟨l, r, h⟩ := p.answerFrame_form f a why data; rw [h]
@[simp] theorem Part.answerFrame_arbiter : (p.answerFrame f a why data).arbiter = p.arbiter := by
  obtain ⟨l, r, h⟩ := p.answerFrame_form f a why data; rw [h]
@[simp] theorem Part.answerFrame_gate : (p.answerFrame f a why data).gate = p.gate := by
  obtain ⟨l, r, h⟩ := p.answerFrame_form f a why data; rw [h]
@[simp] theorem Part.answerFrame_lines : (p.answerFrame f a why data).lines = p.lines := by
  obtain ⟨l, r, h⟩ := p.answerFrame_form f a why data; rw [h]
@[simp] theorem Part.answerFrame_hooks : (p.answerFrame f a why data).hooks = p.hooks := by
  obtain ⟨l, r, h⟩ := p.answerFrame_form f a why data; rw [h]
@[simp] theorem Part.answerFrame_slots : (p.answerFrame f a why data).slots = p.slots := by
  obtain ⟨l, r, h⟩ := p.answerFrame_form f a why data; rw [h]
@[simp] theorem Part.answerFrame_engine : (p.answerFrame f a why data).engine = p.engine := by
  obtain ⟨l, r, h⟩ := p.answerFrame_form f a why data; rw [h]
@[simp] theorem Part.answerFrame_bays : (p.answerFrame f a why data).bays = p.bays := by
  obtain ⟨l, r, h⟩ := p.answerFrame_form f a why data; rw [h]
@[simp] theorem Part.answerFrame_mode : (p.answerFrame f a why data).mgmt.mode = p.mgmt.mode := by
  obtain ⟨l, r, h⟩ := p.answerFrame_form f a why data; rw [h]
@[simp] theorem Part.answerFrame_clock : (p.answerFrame f a why data).mgmt.clock = p.mgmt.clock := by
  obtain ⟨l, r, h⟩ := p.answerFrame_form f a why data; rw [h]

end Answer

/-! ## Bays less the states of their placements -/

/-- A plan without what its placements have come to. -/
def Plan.bare (pl : Plan) : Plan := { pl with placements := pl.placements.map fun q => { q with state := .planned } }

/-- A bay's record without what the placements of its plan have come to. -/
def BayRecord.bare (r : BayRecord) : BayRecord := { r with plan := r.plan.map Plan.bare }

theorem Plan.setPlacement_bare (pl : Plan) (k : Nat) (st : PlacementState) : (pl.setPlacement k st).bare = pl.bare := by
  unfold Plan.setPlacement Plan.placement
  split
  next q hq =>
    obtain ⟨hlt, rfl⟩ := List.getElem?_eq_some_iff.1 hq
    unfold Plan.bare
    congr 1
    rw [List.map_set]
    refine List.ext_getElem (by simp) fun i hi _ => ?_
    by_cases hik : k = i
    · subst hik; simp
    · simp [hik]
  next => rfl

theorem BayRecord.bare_derived (r : BayRecord) : r.bare.derived = r.derived := by
  unfold BayRecord.derived
  have hp : r.bare.present = r.present := rfl
  have hc : r.bare.causes = r.causes := rfl
  have hl : r.bare.last = r.last := rfl
  have hplan : r.bare.plan = r.plan.map Plan.bare := rfl
  rw [hp, hc, hl, hplan]
  cases r.plan with
  | none => rfl
  | some pl =>
    have hm : r.bare.matched pl.bare = r.matched pl := rfl
    simp only [Option.map_some, hm]
    simp [Plan.bare]

/-- The bays of two parts are alike but for the states of placements, and so is the scan. -/
structure Part.SameBays (p q : Part) : Prop where
  entries : q.bays.entries = p.bays.entries
  records : ∀ b, (q.bay b).bare = (p.bay b).bare
  scan : q.bays.scan = p.bays.scan

theorem Part.SameBays.of_eq {p q : Part} (h : q.bays = p.bays) : p.SameBays q :=
  ⟨congrArg Bays.entries h, fun b => by rw [Part.bay, Part.bay, h], congrArg Bays.scan h⟩

theorem Part.SameBays.trans {p q r : Part} (h : p.SameBays q) (k : q.SameBays r) : p.SameBays r :=
  ⟨k.entries.trans h.entries, fun b => (k.records b).trans (h.records b), k.scan.trans h.scan⟩

theorem Part.SameBays.causes {p q : Part} (h : p.SameBays q) (b : Fin 6) : (q.bay b).causes = (p.bay b).causes :=
  by
  have := congrArg BayRecord.causes (h.records b)
  exact this

theorem Part.SameBays.rearmAt {p q : Part} (h : p.SameBays q) (b : Fin 6) : (q.bay b).rearmAt = (p.bay b).rearmAt :=
  by
  have := congrArg BayRecord.rearmAt (h.records b)
  exact this

theorem Part.SameBays.state {p q : Part} (h : p.SameBays q) (b : Fin 6) : (q.bay b).state = (p.bay b).state :=
  by
  have := congrArg BayRecord.state (h.records b)
  exact this

theorem Part.SameBays.noted {p q : Part} (h : p.SameBays q) (b : Fin 6) : (q.bay b).noted = (p.bay b).noted :=
  by
  have := congrArg BayRecord.noted (h.records b)
  exact this

theorem Part.SameBays.last {p q : Part} (h : p.SameBays q) (b : Fin 6) : (q.bay b).last = (p.bay b).last :=
  by
  have := congrArg BayRecord.last (h.records b)
  exact this

theorem Part.SameBays.pollFacts {p q : Part} (h : p.SameBays q) (b : Fin 6) : (q.bay b).pollFacts = (p.bay b).pollFacts :=
  by
  have := congrArg BayRecord.pollFacts (h.records b)
  exact this

theorem Part.SameBays.plan {p q : Part} (h : p.SameBays q) (b : Fin 6) :
    (q.bay b).plan.map Plan.bare = (p.bay b).plan.map Plan.bare := congrArg BayRecord.plan (h.records b)

theorem Part.SameBays.plan_isSome {p q : Part} (h : p.SameBays q) (b : Fin 6) :
    (q.bay b).plan.isSome = (p.bay b).plan.isSome := by
  simpa using congrArg Option.isSome (h.plan b)

theorem Part.SameBays.derived {p q : Part} (h : p.SameBays q) (b : Fin 6) : (q.bay b).derived = (p.bay b).derived := by
  rw [← BayRecord.bare_derived, h.records b, BayRecord.bare_derived]

theorem Part.SameBays.bayEntry {p q : Part} (h : p.SameBays q) (b : Fin 6) : q.bayEntry b = p.bayEntry b := by
  rw [Part.bayEntry, Part.bayEntry, h.entries]

/-- A plan whose placements change their state. -/
theorem Part.onPlan_sameBays (p : Part) (b : Fin 6) {f : Plan → Plan} (hf : ∀ pl, (f pl).bare = pl.bare) :
    p.SameBays (p.onPlan b f) := by
  refine ⟨rfl, fun d => ?_, rfl⟩
  by_cases hd : d = b
  · subst hd
    rw [Part.onPlan, Part.setBay_bay, BayRecord.bare, BayRecord.bare]
    simp only [Option.map_map]
    rw [show Plan.bare ∘ f = Plan.bare from funext hf]
  · rw [Part.onPlan, Part.setBay_bay_ne _ _ _ _ hd]

/-! ## One crane's unit operations -/

/-- What an operation on one crane's order leaves untouched. -/
structure Part.OnlyCrane (c : Fin 4) (p q : Part) : Prop where
  tracker : q.tracker = p.tracker
  params : q.params = p.params
  runs : q.arbiter.runs = p.arbiter.runs
  engine : q.engine = p.engine
  order : ∀ d, d ≠ c → q.order d = p.order d
  latch : ∀ d, d ≠ c → q.latch d = p.latch d
  hook : ∀ d, d ≠ c → q.hook d = p.hook d
  bays : p.SameBays q
  driver : q.lines.driver = p.lines.driver

theorem Part.OnlyCrane.refl (c : Fin 4) (p : Part) : p.OnlyCrane c p :=
  ⟨rfl, rfl, rfl, rfl, fun _ _ => rfl, fun _ _ => rfl, fun _ _ => rfl, .of_eq rfl, rfl⟩

theorem Part.OnlyCrane.trans {c : Fin 4} {p q r : Part} (h : p.OnlyCrane c q) (k : q.OnlyCrane c r) : p.OnlyCrane c r where
  tracker := k.tracker.trans h.tracker
  params := k.params.trans h.params
  runs := k.runs.trans h.runs
  engine := k.engine.trans h.engine
  order d hd := (k.order d hd).trans (h.order d hd)
  latch d hd := (k.latch d hd).trans (h.latch d hd)
  hook d hd := (k.hook d hd).trans (h.hook d hd)
  bays := h.bays.trans k.bays
  driver := k.driver.trans h.driver

/-- What the end of an order leaves untouched besides: the latches and the lines. -/
structure Part.EndsOnly (c : Fin 4) (p q : Part) : Prop extends Part.OnlyCrane c p q where
  latches : q.gate.latches = p.gate.latches
  lines : q.lines = p.lines

theorem Part.EndsOnly.refl (c : Fin 4) (p : Part) : p.EndsOnly c p := ⟨.refl c p, rfl, rfl⟩

theorem Part.EndsOnly.trans {c : Fin 4} {p q r : Part} (h : p.EndsOnly c q) (k : q.EndsOnly c r) : p.EndsOnly c r :=
  ⟨h.toOnlyCrane.trans k.toOnlyCrane, k.latches.trans h.latches, k.lines.trans h.lines⟩

theorem Part.EndsOnly.ite {c : Fin 4} {p q r : Part} (b : Bool) (h : p.EndsOnly c q) (k : p.EndsOnly c r) :
    p.EndsOnly c (if b then q else r) := by
  cases b
  · exact k
  · exact h

section
variable (p : Part) (c : Fin 4)

theorem Part.setOrder_endsOnly (o : Option Order) : p.EndsOnly c (p.setOrder c o) :=
  ⟨⟨rfl, rfl, rfl, rfl, fun d hd => p.setOrder_order_ne c d o hd, fun _ _ => rfl, fun _ _ => rfl, .of_eq rfl, rfl⟩, rfl, rfl⟩

theorem Part.dropTurn_endsOnly : p.EndsOnly c (p.dropTurn c) :=
  ⟨⟨rfl, rfl, rfl, rfl, fun _ _ => rfl, fun _ _ => rfl, fun _ _ => rfl, .of_eq rfl, rfl⟩, rfl, rfl⟩

theorem Part.onLink_endsOnly (f : Link → Link) : p.EndsOnly c (p.onLink f) :=
  ⟨⟨rfl, rfl, rfl, rfl, fun _ _ => rfl, fun _ _ => rfl, fun _ _ => rfl, .of_eq rfl, rfl⟩, rfl, rfl⟩

theorem Part.onSlots_endsOnly (f : SlotMap → SlotMap) : p.EndsOnly c (p.onSlots f) :=
  ⟨⟨rfl, rfl, rfl, rfl, fun _ _ => rfl, fun _ _ => rfl, fun _ _ => rfl, .of_eq rfl, rfl⟩, rfl, rfl⟩

theorem Part.setHook_endsOnly (h : Hook) : p.EndsOnly c (p.setHook c h) :=
  ⟨⟨rfl, rfl, rfl, rfl, fun _ _ => rfl, fun _ _ => rfl, fun d hd => p.setHook_hook_ne c d h hd, .of_eq rfl, rfl⟩, rfl, rfl⟩

theorem Part.withdrawClaim_endsOnly : p.EndsOnly c (p.withdrawClaim c) := by
  unfold Part.withdrawClaim
  split
  · exact .refl c p
  · refine ⟨⟨?_, ?_, ?_, ?_, fun _ _ => ?_, fun _ _ => ?_, fun _ _ => ?_, .of_eq ?_, ?_⟩, ?_, ?_⟩ <;>
      simp [Part.order, Part.latch, Part.hook, Part.setClaim]

theorem Part.notify_endsOnly (k : NoticeKind) (a v1 v2 v3 : Nat) : p.EndsOnly c (p.notify k a v1 v2 v3) := by
  obtain ⟨l, ns, n, h⟩ := p.notify_form k a v1 v2 v3
  rw [h]
  exact ⟨⟨rfl, rfl, rfl, rfl, fun _ _ => rfl, fun _ _ => rfl, fun _ _ => rfl, .of_eq rfl, rfl⟩, rfl, rfl⟩

theorem Part.verdict_endsOnly (d : Fin 4) (tag : Nat) (k : VerdictKind) (why : Option Reason) (x y : Nat) :
    p.EndsOnly c (p.verdict d tag k why x y) := by
  obtain ⟨l, vs, h⟩ := p.giveVerdict_form ⟨d, tag, k, why, x, y⟩
  rw [Part.verdict, h]
  exact ⟨⟨rfl, rfl, rfl, rfl, fun _ _ => rfl, fun _ _ => rfl, fun _ _ => rfl, .of_eq rfl, rfl⟩, rfl, rfl⟩

theorem Part.onPlan_endsOnly (b : Fin 6) {f : Plan → Plan} (hf : ∀ pl, (f pl).bare = pl.bare) :
    p.EndsOnly c (p.onPlan b f) :=
  ⟨⟨rfl, rfl, rfl, rfl, fun _ _ => rfl, fun _ _ => rfl, fun _ _ => rfl, p.onPlan_sameBays b hf, rfl⟩, rfl, rfl⟩

theorem Part.clearSource_endsOnly : p.EndsOnly c (p.clearSource c) := by
  unfold Part.clearSource
  split
  · exact .refl c p
  next s _ =>
    simp only []
    split
    · exact (p.setHook_endsOnly c _).trans (Part.onSlots_endsOnly _ c _)
    · exact p.setHook_endsOnly c _

theorem Part.revertSlotDest_endsOnly (i : Nat) : p.EndsOnly c (p.revertSlotDest i c) := by
  unfold Part.revertSlotDest
  refine (p.onSlots_endsOnly c fun _ => (p.slots.revertDest i c).1).trans ?_
  simp only []
  split
  · exact Part.notify_endsOnly _ c _ _ _ _ _
  · exact .refl c _

theorem Part.revertPlacement_endsOnly (b : Fin 6) (k : Nat) : p.EndsOnly c (p.revertPlacement b k c) := by
  unfold Part.revertPlacement
  split
  · exact p.onPlan_endsOnly c b fun pl => pl.setPlacement_bare k .planned
  · exact .refl c p

theorem Part.clearDest_endsOnly : p.EndsOnly c (p.clearDest c) := by
  unfold Part.clearDest
  split
  · exact .refl c p
  next d _ =>
    simp only []
    split
    · exact (p.setHook_endsOnly c _).trans (Part.revertSlotDest_endsOnly _ c _)
    · exact (p.setHook_endsOnly c _).trans (Part.revertPlacement_endsOnly _ c _ _)

theorem Part.endOrder_endsOnly (complete : Bool) (v : Option (VerdictKind × Option Reason)) :
    p.EndsOnly c (p.endOrder c complete v) := by
  unfold Part.endOrder
  split
  · exact .refl c p
  next o _ =>
    have hended : p.EndsOnly c ((((p.setOrder c (some { o with state := .ended, pending := none })).dropTurn c).withdrawClaim
        c).onLink (Link.removeCommands c)) :=
      (p.setOrder_endsOnly c _).trans ((Part.dropTurn_endsOnly _ c).trans ((Part.withdrawClaim_endsOnly _ c).trans
        (Part.onLink_endsOnly _ c _)))
    have hsource := hended.trans (Part.EndsOnly.ite
      ((((((p.setOrder c (some { o with state := .ended, pending := none })).dropTurn c).withdrawClaim c).onLink
        (Link.removeCommands c)).hook c).state == .empty) (Part.clearSource_endsOnly _ c) (.refl c _))
    have hdest := hsource.trans (Part.EndsOnly.ite (o.setDest && !complete) (Part.clearDest_endsOnly _ c) (.refl c _))
    cases v with
    | none => exact hdest
    | some v => exact hdest.trans (Part.verdict_endsOnly _ c _ _ _ _ _ _)

end

/-! ## The order itself -/

section
variable (p : Part) (c : Fin 4)

theorem Part.withdrawClaim_orders : (p.withdrawClaim c).gate.orders = p.gate.orders := by
  unfold Part.withdrawClaim
  split <;> simp [Part.setClaim]

theorem Part.clearSource_gate : (p.clearSource c).gate = p.gate := by
  unfold Part.clearSource
  split
  · rfl
  · simp only []
    split <;> rfl

theorem Part.clearDest_gate : (p.clearDest c).gate = p.gate := by
  unfold Part.clearDest
  split
  · rfl
  · simp only []
    split
    · unfold Part.revertSlotDest Part.noticeExpired
      simp only []
      split <;> simp [Part.notify_gate]
    · unfold Part.revertPlacement
      split <;> simp

/-- The active order is over; an order that was not active stays as it is (R54, R64). -/
theorem Part.endOrder_order (complete : Bool) (v : Option (VerdictKind × Option Reason)) :
    (p.endOrder c complete v).order c =
      match p.activeOrder c with
      | none => p.order c
      | some o => some { o with state := .ended, pending := none } := by
  unfold Part.endOrder
  cases h : p.activeOrder c with
  | none => rfl
  | some o =>
    have hset : ∀ q : Part, q.gate.orders = (p.setOrder c (some { o with state := .ended, pending := none })).gate.orders →
        q.order c = some { o with state := .ended, pending := none } := by
      intro q hq
      rw [Part.order, hq]
      exact Part.setOrder_order p c _
    have hclaim : (((p.setOrder c (some { o with state := .ended, pending := none })).dropTurn c).withdrawClaim c).gate.orders = (p.setOrder c (some { o with state := .ended, pending := none })).gate.orders :=
      Part.withdrawClaim_orders _ c
    simp only []
    split <;> split <;> split <;> refine hset _ ?_ <;>
      simp [Part.orderVerdict, Part.clearSource_gate, Part.clearDest_gate, hclaim]

theorem Part.endOrder_activeOrder (complete : Bool) (v : Option (VerdictKind × Option Reason)) :
    (p.endOrder c complete v).activeOrder c = none := by
  rw [Part.activeOrder, Part.endOrder_order]
  cases h : p.activeOrder c with
  | none => exact h
  | some o => simp [Order.active]

end

end Sys2Proof.Machine
end

section
/-! O18, O24 and O25. DONE, HALT and the stale expiry: how orders end and cranes are stopped. -/

namespace Sys2Proof.Machine

/-! ## A stop request (R66, R67) -/

theorem Part.setLatch_onlyCrane (p : Part) (c : Fin 4) (l : Latch) : p.OnlyCrane c (p.setLatch c l) :=
  ⟨rfl, rfl, rfl, rfl, fun _ _ => rfl, fun d hd => p.setLatch_latch_ne c d l hd, fun _ _ => rfl, .of_eq rfl, rfl⟩

theorem Part.commandStop_onlyCrane (p : Part) (c : Fin 4) (on : Bool) : p.OnlyCrane c (p.commandStop c on) :=
  ⟨rfl, rfl, rfl, rfl, fun _ _ => rfl, fun _ _ => rfl, fun _ _ => rfl, .of_eq rfl, rfl⟩

/-- The part as a stop request brings its cause into the latch and to the line and the queues, before the order ends. -/
def Part.stopped (p : Part) (c : Fin 4) (cause : StopCause) (bay : Option (Fin 6)) : Part :=
  let causes := (p.latch c).causes.put cause true
  (((p.setLatch c ({ p.latch c with causes := causes }.addBay cause bay)).commandStop c true).onLink
    (Link.putStop c causes)).onLink (Link.removeCommands c)

theorem Part.stopped_onlyCrane (p : Part) (c : Fin 4) (cause : StopCause) (bay : Option (Fin 6)) :
    p.OnlyCrane c (p.stopped c cause bay) :=
  (p.setLatch_onlyCrane c _).trans ((Part.commandStop_onlyCrane _ c true).trans
    ((Part.onLink_endsOnly _ c _).trans (Part.onLink_endsOnly _ c _)).toOnlyCrane)

theorem Part.requestStop_of_unconfigured (p : Part) (c : Fin 4) (cause : StopCause) (bay : Option (Fin 6))
    (h : (p.entry c).configured = false) : p.requestStop c cause bay = p := by
  simp [Part.requestStop, h]

/-- A cause that the latch holds already only adds its bay. -/
theorem Part.requestStop_of_held (p : Part) (c : Fin 4) (cause : StopCause) (bay : Option (Fin 6))
    (h : (p.entry c).configured = true) (hc : (p.latch c).causes.has cause = true) :
    p.requestStop c cause bay = p.setLatch c ((p.latch c).addBay cause bay) := by
  simp [Part.requestStop, h, hc]

/-- A cause that is new to the latch of a configured crane. -/
theorem Part.requestStop_of_new (p : Part) (c : Fin 4) (cause : StopCause) (bay : Option (Fin 6))
    (h : (p.entry c).configured = true) (hc : (p.latch c).causes.has cause = false) :
    p.requestStop c cause bay =
      ((p.stopped c cause bay).endOrder c false (some (.aborted, none))).notify .stopSet c.val cause.code
        ((p.latch c).causes.put cause true).flags (bay.elim 255 Fin.val) := by
  simp only [Part.requestStop, h, hc, Bool.not_true, Bool.false_eq_true, if_false]
  rfl

theorem Part.requestStop_onlyCrane (p : Part) (c : Fin 4) (cause : StopCause) (bay : Option (Fin 6)) :
    p.OnlyCrane c (p.requestStop c cause bay) := by
  cases h : (p.entry c).configured with
  | false => rw [p.requestStop_of_unconfigured c cause bay h]; exact .refl c p
  | true =>
    cases hc : (p.latch c).causes.has cause with
    | true => rw [p.requestStop_of_held c cause bay h hc]; exact p.setLatch_onlyCrane c _
    | false =>
      rw [p.requestStop_of_new c cause bay h hc]
      exact (p.stopped_onlyCrane c cause bay).trans
        ((Part.endOrder_endsOnly _ c _ _).trans (Part.notify_endsOnly _ c _ _ _ _ _)).toOnlyCrane

/-- What a new cause brings: it is in the latch, the stop line is asserted, no order is active. -/
theorem Part.requestStop_new (p : Part) (c : Fin 4) (cause : StopCause) (bay : Option (Fin 6))
    (h : (p.entry c).configured = true) (hc : (p.latch c).causes.has cause = false) :
    (p.requestStop c cause bay).latch c = { p.latch c with causes := (p.latch c).causes.put cause true }.addBay cause bay
      ∧ (p.requestStop c cause bay).lines.stop[c].commanded = true
      ∧ (p.requestStop c cause bay).activeOrder c = none := by
  rw [p.requestStop_of_new c cause bay h hc]
  have hend := (p.stopped c cause bay).endOrder_endsOnly c false (some (.aborted, none))
  have hactive := (p.stopped c cause bay).endOrder_activeOrder c false (some (.aborted, none))
  refine ⟨?_, ?_, ?_⟩
  · rw [Part.latch, Part.notify_gate, hend.latches]
    exact Part.setLatch_latch p c _
  · rw [Part.notify_lines, hend.lines]
    simp [Part.stopped, Part.commandStop, OutLine.command_commanded]
  · simpa only [Part.activeOrder, Part.order, Part.notify_gate] using hactive

theorem CauseSet.put_has (s : CauseSet) (x : StopCause) (on : Bool) : (s.put x on).has x = on := by
  cases x <;> rfl

/-- A stop request leaves its cause in the latch of a configured crane. -/
theorem Part.requestStop_has (p : Part) (c : Fin 4) (cause : StopCause) (bay : Option (Fin 6))
    (h : (p.entry c).configured = true) : ((p.requestStop c cause bay).latch c).causes.has cause = true := by
  cases hc : (p.latch c).causes.has cause with
  | true => rw [p.requestStop_of_held c cause bay h hc, Part.setLatch_latch, Latch.addBay_causes, hc]
  | false => rw [(p.requestStop_new c cause bay h hc).1, Latch.addBay_causes, CauseSet.put_has]

/-! ## O25 -/

/-- Settles O25. -/
theorem staleCraneIsStopped : Obligations.StaleCraneIsStopped := by
  unfold Obligations.StaleCraneIsStopped
  intro s c last hr hq htracked hlast hpassed
  have hdue : s.part.staleDue c = true := by
    simp only [Part.staleDue, htracked, hlast, Option.any_some, beq_self_eq_true, Bool.true_and]
    exact hpassed
  let r := s.part.record c
  let counted := (s.part.setRecord c { r with tracking := .stale, staleCount := bump r.staleCount }).notify .craneState c.val 2
    (r.last.elim 0 fun t => t.arrival.toNat) s.part.params.staleLimit
  have hexec : exec (.staleExpiry c) s = .next (s.withPart (s.part.becomeStale c)) := by
    rw [exec_staleExpiry]
    refine State.act_eq hr ?_
    rw [Part.expireStale, whenDue_of_quiet hq]
    exact if_pos hdue
  have hbecome : s.part.becomeStale c = counted.requestStop c .stale none := rfl
  have hgate : counted.gate = s.part.gate := Part.notify_gate _ _ _ _ _ _
  have hentry : counted.entry c = s.part.entry c := by rw [Part.entry, Part.notify_tracker]; rfl
  have hrecord : ∀ d, counted.record d = (s.part.setRecord c
      { r with tracking := .stale, staleCount := bump r.staleCount }).record d := fun d => by
    rw [Part.record, Part.notify_tracker]; rfl
  have honly := counted.requestStop_onlyCrane c .stale none
  refine ⟨_, hexec, rfl, ?_, fun d hd => ⟨?_, ?_, ?_⟩, fun hconf hstale => ?_, ?_, ?_⟩
  · simp only [State.withPart, hbecome]
    rw [Part.record, honly.tracker, ← Part.record, hrecord, Part.setRecord_record]
  · simp only [State.withPart, hbecome]
    rw [Part.record, honly.tracker, ← Part.record, hrecord, Part.setRecord_record_ne _ _ _ _ hd]
  · simp only [State.withPart, hbecome]
    rw [honly.latch d hd, Part.latch, hgate, ← Part.latch]
  · simp only [State.withPart, hbecome]
    rw [honly.order d hd, Part.order, hgate, ← Part.order]
  · have hlatch : counted.latch c = s.part.latch c := by rw [Part.latch, hgate, ← Part.latch]
    obtain ⟨h1, h2, h3⟩ := counted.requestStop_new c .stale none (by rw [hentry, hconf])
      (by rw [hlatch]; exact hstale)
    simp only [State.withPart, hbecome]
    exact ⟨by rw [h1, hlatch]; rfl, h2, h3⟩
  · simp only [State.withPart, hbecome]
    rw [honly.runs]
    simp [counted]
  · exact (s.part.becomeStale_keeps (S := Scope.wide) c trivial).sameTables

/-! ## O18 -/

theorem Part.forwarded_keeps {S : Scope} (p : Part) (f : Frame) : p.Keeps S (p.forwarded f) := p.toTelemetry_keeps f

/-- Settles O18. -/
theorem doneEndsTheOrder : Obligations.DoneEndsTheOrder := by
  unfold Obligations.DoneEndsTheOrder
  intro s c f d ht hq hd
  have hexec : ∀ q : Part, s.part.dropCrane.takeDone c d = q → exec .done s = .next (s.withPart (q.forwarded f)) := by
    intro q h
    rw [exec_done]
    refine State.act_eq ht.1 ?_
    rw [doneFrame_of_telegram ht hq hd, h]
  refine ⟨fun o ho htag hseq => ⟨fun hends => ?_, fun hpartly hcomplete hshort => ?_⟩, fun hnot => ?_⟩
  · have hfilter : (s.part.dropCrane.activeOrder c).filter (fun o => o.isDone d) = some o := by
      rw [show s.part.dropCrane.activeOrder c = some o from ho]
      simp [Order.isDone, htag, hseq]
    have htake : s.part.dropCrane.takeDone c d = s.part.dropCrane.endOrder c d.complete none := by
      rw [Part.takeDone, hfilter]
      rcases hends with hf | ⟨hp, hmore⟩
      · simp only [hf]
      · have hcond : (d.complete && o.short.isNone) = false := by
          rcases hmore with h | h
          · simp [h]
          · obtain ⟨why, hwhy⟩ := Option.isSome_iff_exists.1 h
            simp [hwhy]
        simp only [hp, hcond, Bool.false_eq_true, if_false]
    have hend := s.part.dropCrane.endOrder_endsOnly c d.complete none
    have horder := s.part.dropCrane.endOrder_order c d.complete none
    rw [show s.part.dropCrane.activeOrder c = some o from ho] at horder
    exact ⟨_, hexec _ htake, rfl, horder, hend.order, hend.runs, hend.latches, congrArg Tracker.records hend.tracker,
      ((s.part.dropCrane_keeps (S := Scope.wide)).trans ((Part.endOrder_keeps _ c _ _).trans
        (Part.forwarded_keeps _ f))).sameTables⟩
  · refine hexec _ ?_
    have hfilter : (s.part.dropCrane.activeOrder c).filter (fun o => o.isDone d) = some o := by
      rw [show s.part.dropCrane.activeOrder c = some o from ho]
      simp [Order.isDone, htag, hseq]
    simp only [Part.takeDone, hfilter, hpartly, hcomplete, hshort, Option.isNone_none, Bool.and_self, if_true]
  · refine hexec _ ?_
    have hfilter : (s.part.dropCrane.activeOrder c).filter (fun o => o.isDone d) = none := by
      rw [Option.filter_eq_none_iff]
      intro o ho
      have := hnot o ho
      simpa [Order.isDone, ← not_and_or] using this
    simp only [Part.takeDone, hfilter]

/-! ## O24 -/

/-- A HALT in URGENT, by the body of each entry (R65, R170). -/
theorem Link.putHalt_eq (c : Fin 4) (tag : Nat) (l : Link) :
    l.putHalt c tag =
      if (l.urgent.any fun u => u.crane == c) = true then
        { l with urgent := l.urgent.map fun u =>
            match u.body with
            | .halt old => { u with body := .halt (if u.crane = c then tag else old) }
            | .stop _ => u }
      else Link.startCrane { l with urgent := l.urgent ++ [⟨c, l.seq, .halt tag⟩], seq := l.seq + 1 } := by
  unfold Link.putHalt
  split
  next =>
    refine congrArg (fun us => { l with urgent := us }) (List.map_congr_left fun u _ => ?_)
    obtain ⟨crane, seq, body⟩ := u
    cases body with
    | stop causes => simp
    | halt old =>
      by_cases hc : crane = c
      · simp [hc]
      · simp [hc]
  next => rfl

/-- The link without the crane commands of the cranes of a list. -/
theorem Part.foldl_removeCommands (cs : List (Fin 4)) (p : Part) :
    cs.foldl (fun p c => p.onLink (Link.removeCommands c)) p =
      p.onLink fun l => { l with normal := l.normal.filter fun e => cs.all fun c => !e.sort.commands c } := by
  induction cs generalizing p with
  | nil => simp [Part.onLink]
  | cons c cs ih =>
    rw [List.foldl_cons, ih]
    simp only [Part.onLink, Link.removeCommands, List.filter_filter, List.all_cons]
    congr 3
    funext e
    exact Bool.and_comm _ _

/-- The active orders of the cranes of a list end. -/
structure Part.EndsAll (cs : List (Fin 4)) (p q : Part) : Prop where
  ended : ∀ c ∈ cs, q.activeOrder c = none
  order : ∀ c, c ∉ cs → q.order c = p.order c
  runs : q.arbiter.runs = p.arbiter.runs
  latches : q.gate.latches = p.gate.latches
  tracker : q.tracker = p.tracker
  params : q.params = p.params

/-- Where one operation after another ends the active order of one crane. -/
theorem Part.foldl_endsAll {f : Part → Fin 4 → Part} (hf : ∀ p c, p.EndsOnly c (f p c) ∧ (f p c).activeOrder c = none)
    (cs : List (Fin 4)) (p : Part) : p.EndsAll cs (cs.foldl f p) := by
  induction cs using List.reverseRecOn with
  | nil => exact ⟨fun _ h => absurd h List.not_mem_nil, fun _ _ => rfl, rfl, rfl, rfl, rfl⟩
  | append_singleton cs c ih =>
    rw [List.foldl_append, List.foldl_cons, List.foldl_nil]
    obtain ⟨honly, hnone⟩ := hf (cs.foldl f p) c
    refine ⟨fun d hd => ?_, fun d hd => ?_, honly.runs.trans ih.runs, honly.latches.trans ih.latches,
      honly.tracker.trans ih.tracker, honly.params.trans ih.params⟩
    · by_cases hdc : d = c
      · rw [hdc, hnone]
      · have hmem : d ∈ cs := by simpa [hdc] using hd
        rw [Part.activeOrder, honly.order d hdc, ← Part.activeOrder, ih.ended d hmem]
    · simp only [List.mem_append, List.mem_singleton, not_or] at hd
      rw [honly.order d hd.2, ih.order d hd.1]

theorem mem_configured_iff (p : Part) (c : Fin 4) : c ∈ p.configured ↔ (p.entry c).configured = true := by
  simp [Part.configured, mem_craneList]

theorem Part.takeBroadcastHalt_endsAll (p : Part) (f : Frame) : p.EndsAll p.configured (p.takeBroadcastHalt f) := by
  have h := Part.foldl_endsAll (f := fun p c =>
      (p.endOrder c false (some (.superseded, none))).onLink (Link.removeCommands c))
    (fun p c => ⟨(p.endOrder_endsOnly c _ _).trans (Part.onLink_endsOnly _ c _), p.endOrder_activeOrder c _ _⟩) p.configured p
  exact ⟨h.ended, h.order, h.runs, h.latches, h.tracker, h.params⟩

theorem broadcastHaltFrame_of_class {s : State} {f : Frame} (hq : s.Quiet) (hh : s.part.supHead = some f)
    (hc : s.part.classifySup f = .broadcastHalt) (hv : s.part.gate.verdicts = []) :
    s.part.broadcastHaltFrame = s.part.dropSup.takeBroadcastHalt f := by
  simp only [Part.broadcastHaltFrame, hh, hc, gateTakes_of_quiet hv hq, if_true, dropSup_await hq]

/-- Settles O24. -/
theorem haltEndsOrders : Obligations.HaltEndsOrders := by
  unfold Obligations.HaltEndsOrders
  intro s f hq
  refine ⟨fun c tag ho hread => ?_, fun hr hh hcl hv => ?_⟩
  · have hexec : exec .halt s = .next (s.withPart
        (((s.part.dropSup.endOrder c false (some (.superseded, none))).onLink (Link.putHalt c tag)).verdict c tag .passed none
          0 0)) := by
      rw [exec_halt]
      refine State.act_eq ho.1 ?_
      rw [haltFrame_of_order ho hq, Part.takeHalt, hread]
    have hend := s.part.dropSup.endOrder_endsOnly c false (some (.superseded, none))
    have hactive := s.part.dropSup.endOrder_activeOrder c false (some (.superseded, none))
    refine ⟨fun hnone => ?_, _, hexec, rfl, ?_, fun d hd => ?_, ?_, ?_, ?_, ?_⟩
    · rw [hexec, Part.endOrder_of_none _ c _ _ (show s.part.dropSup.activeOrder c = none from hnone)]
      rw [show Link.putHalt c tag = _ from funext (Link.putHalt_eq c tag)] <;> rfl
    · simpa [State.withPart, Part.activeOrder, Part.order] using hactive
    · simpa [State.withPart, Part.order] using hend.order d hd
    · simpa [State.withPart] using hend.runs
    · simpa [State.withPart] using hend.latches
    · simp [State.withPart, hend.tracker]
    · refine Part.Keeps.sameTables (S := Scope.wide) ((s.part.dropSup_keeps).trans ?_)
      have := s.part.dropSup.takeHalt_keeps (S := Scope.wide) c f.payload
      rwa [Part.takeHalt, hread] at this
  · have hexec : exec .broadcastHalt s = .next (s.withPart (s.part.dropSup.takeBroadcastHalt f)) := by
      rw [exec_broadcastHalt]
      exact State.act_eq hr (broadcastHaltFrame_of_class hq hh hcl hv)
    have hend := s.part.dropSup.takeBroadcastHalt_endsAll f
    refine ⟨fun hnone => ?_, _, hexec, rfl, fun c hc => hend.ended c ((mem_configured_iff _ c).2 hc), fun c hc =>
      hend.order c fun hm => ?_, hend.runs, hend.latches, ?_⟩
    · rw [hexec]
      refine congrArg (fun q => Host.Outcome.next (s.withPart q)) ?_
      have hfold : s.part.dropSup.configured.foldl (fun p c =>
          (p.endOrder c false (some (.superseded, none))).onLink (Link.removeCommands c)) s.part.dropSup =
          s.part.dropSup.configured.foldl (fun p c => p.onLink (Link.removeCommands c)) s.part.dropSup := by
        have hstep : ∀ (cs : List (Fin 4)) (p : Part), (∀ c, p.activeOrder c = none) →
            cs.foldl (fun p c => (p.endOrder c false (some (.superseded, none))).onLink (Link.removeCommands c)) p =
              cs.foldl (fun p c => p.onLink (Link.removeCommands c)) p := by
          intro cs
          induction cs with
          | nil => exact fun _ _ => rfl
          | cons c cs ih =>
            intro p hp
            rw [List.foldl_cons, List.foldl_cons, p.endOrder_of_none c _ _ (hp c)]
            exact ih _ hp
        exact hstep _ _ hnone
      rw [Part.takeBroadcastHalt, hfold, Part.foldl_removeCommands]
      refine Part.onLink_congr (p := s.part.dropSup) (f := fun l => Link.broadcastHalt f
        { l with normal := l.normal.filter fun e => s.part.dropSup.configured.all fun c => !e.sort.commands c }) ?_
      simp only [Link.broadcastHalt, Link.normalRoom_iff, show s.part.dropSup.configured = s.part.configured from rfl]
      split_ifs <;> rfl
    · rw [mem_configured_iff] at hm
      exact absurd (hm.symm.trans hc) (by decide)
    · exact ((s.part.dropSup_keeps (S := Scope.wide)).trans (Part.takeBroadcastHalt_keeps _ f)).sameTables

end Sys2Proof.Machine
end

section
/-! O27, O29, O31 and O32. Reservations, the timers of a bay and the filter of the discrete inputs. -/

namespace Sys2Proof.Machine

/-! ## O27 -/

theorem serveReservationExpiry_of_reserved {p : Part} {i : Nat} {g : Geometry} {r : Reservation}
    (h : p.slots.slot i = some ⟨g, .reserved r⟩) (hp : passed p.mgmt.clock r.expiry = true) :
    serveReservationExpiry i p = (p.onSlots fun m => m.setContents i .free).noticeExpired i r := by
  simp only [serveReservationExpiry, h]
  exact if_pos hp

theorem serveReservationExpiry_of_incoming {p : Part} {i : Nat} {g : Geometry} {r : Reservation} {c : Fin 4} {w : Nat}
    (h : p.slots.slot i = some ⟨g, .incoming r c w⟩) (hp : passed p.mgmt.clock r.expiry = true) :
    serveReservationExpiry i p = p.onSlots fun m => m.setContents i (.incoming { r with lapsed := true } c w) := by
  simp only [serveReservationExpiry, h]
  exact if_pos hp

theorem Part.reservationDue_of_reserved {p : Part} {i : Nat} {g : Geometry} {r : Reservation}
    (h : p.slots.slot i = some ⟨g, .reserved r⟩) (hp : passed p.mgmt.clock r.expiry = true)
    (hn : .expiry i ∉ p.slots.requests) : p.reservationDue i = true := by
  have hc : p.slots.requests.contains (.expiry i) = false := by simpa using hn
  simp only [Part.reservationDue, h, hc, Bool.not_false, Bool.true_and]
  exact hp

theorem Part.reservationDue_of_incoming {p : Part} {i : Nat} {g : Geometry} {r : Reservation} {c : Fin 4} {w : Nat}
    (h : p.slots.slot i = some ⟨g, .incoming r c w⟩) (hp : passed p.mgmt.clock r.expiry = true) (hl : r.lapsed = false)
    (hn : .expiry i ∉ p.slots.requests) : p.reservationDue i = true := by
  have hc : p.slots.requests.contains (.expiry i) = false := by simpa using hn
  simp only [Part.reservationDue, h, hc, hl, Bool.not_false, Bool.true_and, Bool.and_true]
  exact hp

/-- Settles O27. -/
theorem reservationsExpire : Obligations.ReservationsExpire := by
  unfold Obligations.ReservationsExpire
  intro s i g r hr hp freed lapsed
  refine ⟨fun h hq => ?_, fun c w h hl hq => ?_, fun h hne hnot => ?_, fun rest hrest h => ?_⟩
  · rw [exec_reservationExpiry]
    refine State.act_eq hr ?_
    have hdue := Part.reservationDue_of_reserved h hp (by rw [hq]; exact List.not_mem_nil)
    have hempty : s.part.slots.requests.isEmpty = true := by rw [hq]; rfl
    simp only [Part.expireReservation, hdue, hempty, Bool.not_true, Bool.false_eq_true, if_false, if_true,
      serveReservationExpiry_of_reserved h hp]
    rfl
  · rw [exec_reservationExpiry]
    refine State.act_eq hr ?_
    have hdue := Part.reservationDue_of_incoming h hp hl (by rw [hq]; exact List.not_mem_nil)
    have hempty : s.part.slots.requests.isEmpty = true := by rw [hq]; rfl
    simp only [Part.expireReservation, hdue, hempty, Bool.not_true, Bool.false_eq_true, if_false, if_true,
      serveReservationExpiry_of_incoming h hp]
    rfl
  · rw [exec_reservationExpiry]
    refine State.act_eq hr ?_
    have hdue := Part.reservationDue_of_reserved h hp hnot
    have hmore : s.part.slots.requests.isEmpty = false := by simpa using hne
    simp only [Part.expireReservation, hdue, hmore, Bool.not_true, Bool.false_eq_true, if_false]
    rfl
  · rw [exec_slotMapRequestServed]
    refine State.act_eq hr ?_
    have hserve : s.part.serveRequest = serveReservationExpiry i (s.part.setRequests rest) := by
      simp only [Part.serveRequest, Part.serveNext, hrest, SlotTask.serve]
    rw [hserve, serveReservationExpiry_of_reserved (p := s.part.setRequests rest) h hp]
    rfl

/-! ## The derived state of a bay -/

theorem Part.deriveOnce_of_same {p : Part} {b : Fin 6} (h : (p.bay b).derived = (p.bay b).state) : p.deriveOnce b = p := by
  simp only [Part.deriveOnce, h, if_true]

/-- A change of the state brings the lamps and the flash timer with it (R144, R157). -/
theorem Part.deriveOnce_of_change {p : Part} {b : Fin 6} (h : (p.bay b).derived ≠ (p.bay b).state) :
    p.deriveOnce b =
      ((p.setBay b { p.bay b with
        state := (p.bay b).derived
        flashAt := if (p.bay b).derived = .paused then some (after p.now (p.bayEntry b).flashOn) else none }).commandLamps b
          (p.bay b).derived.green (p.bay b).derived.red).notify .bayState b.val (1 + 256 * (p.bay b).state.code)
            (p.bay b).derived.code (p.bay b).causes.flags := by
  simp only [Part.deriveOnce, if_neg h]

/-- The record of a bay once its state is derived. -/
theorem Part.deriveOnce_bay (p : Part) (b : Fin 6) :
    ∃ flashAt, (p.deriveOnce b).bay b = { p.bay b with state := (p.bay b).derived, flashAt := flashAt } := by
  by_cases h : (p.bay b).derived = (p.bay b).state
  · exact ⟨(p.bay b).flashAt, by rw [Part.deriveOnce_of_same h, h]⟩
  · refine ⟨if (p.bay b).derived = .paused then some (after p.now (p.bayEntry b).flashOn) else none, ?_⟩
    rw [Part.deriveOnce_of_change h, Part.bay, Part.notify_bays, Part.commandLamps_bays, ← Part.bay, Part.setBay_bay]

theorem Part.deriveOnce_bay_ne (p : Part) {b d : Fin 6} (hd : d ≠ b) : (p.deriveOnce b).bay d = p.bay d := by
  by_cases h : (p.bay b).derived = (p.bay b).state
  · rw [Part.deriveOnce_of_same h]
  · rw [Part.deriveOnce_of_change h, Part.bay, Part.notify_bays, Part.commandLamps_bays, ← Part.bay,
      Part.setBay_bay_ne _ _ _ _ hd]

/-- What the derivation of a bay's state leaves untouched. -/
structure Part.DerivesOnly (p q : Part) : Prop where
  tracker : q.tracker = p.tracker
  arbiter : q.arbiter = p.arbiter
  gate : q.gate = p.gate
  hooks : q.hooks = p.hooks
  slots : q.slots = p.slots
  params : q.params = p.params
  engine : q.engine = p.engine
  entries : q.bays.entries = p.bays.entries
  scan : q.bays.scan = p.bays.scan
  stop : q.lines.stop = p.lines.stop
  driver : q.lines.driver = p.lines.driver

theorem Part.deriveOnce_derivesOnly (p : Part) (b : Fin 6) : p.DerivesOnly (p.deriveOnce b) := by
  by_cases h : (p.bay b).derived = (p.bay b).state
  · rw [Part.deriveOnce_of_same h]
    exact ⟨rfl, rfl, rfl, rfl, rfl, rfl, rfl, rfl, rfl, rfl, rfl⟩
  · rw [Part.deriveOnce_of_change h]
    constructor <;> simp [Part.notify_gate, Part.notify_lines, Part.commandLamps, Part.setBay]

theorem BayRecord.derived_congr {r r' : BayRecord} (hl : r'.last = r.last) (hc : r'.causes = r.causes) (hp : r'.plan = r.plan) :
    r'.derived = r.derived := by
  unfold BayRecord.derived BayRecord.present BayRecord.matched
  rw [hl, hc, hp]

/-- Once derived, the state is the one the facts give. -/
theorem Part.deriveOnce_state (p : Part) (b : Fin 6) : ((p.deriveOnce b).bay b).state = ((p.deriveOnce b).bay b).derived := by
  obtain ⟨flashAt, h⟩ := p.deriveOnce_bay b
  rw [h]
  exact (BayRecord.derived_congr (r := p.bay b) rfl rfl rfl).symm

theorem Part.derive_state (p : Part) (b : Fin 6) : ((p.derive b).bay b).state = ((p.derive b).bay b).derived := by
  simp only [Part.derive]
  split
  · exact Part.deriveOnce_state _ b
  · exact Part.deriveOnce_state _ b

/-! ## O29 -/

theorem Part.withZones_bay (p : Part) (zs : Vector Zone 32) (b : Fin 6) : (p.withZones zs).bay b = p.bay b := rfl

theorem Part.withZones_lines (p : Part) (zs : Vector Zone 32) : (p.withZones zs).lines = p.lines := rfl

theorem Part.withZones_zones (p : Part) (zs : Vector Zone 32) : (p.withZones zs).arbiter.zones = zs := rfl

theorem Part.withZones_gate (p : Part) (zs : Vector Zone 32) : (p.withZones zs).gate = p.gate := rfl

theorem Part.withZones_hooks (p : Part) (zs : Vector Zone 32) : (p.withZones zs).hooks = p.hooks := rfl

/-- A bay whose pause for the driver is over, with its zones, before its state is derived (R148). -/
def Part.rearmed (p : Part) (b : Fin 6) : Part :=
  (p.setBay b { p.bay b with rearmAt := none, causes := { (p.bay b).causes with driver := false } }).withZones
    (Vector.ofFn fun k : Fin 32 =>
      if (p.bayEntry b).mask.getLsbD k.val then
        { p.arbiter.zones[k] with bayHold := BaySet.put p.arbiter.zones[k].bayHold b false }
      else p.arbiter.zones[k])

theorem Part.rearmed_bay (p : Part) (b : Fin 6) :
    (p.rearmed b).bay b = { p.bay b with rearmAt := none, causes := { (p.bay b).causes with driver := false } } :=
  (Part.withZones_bay _ _ b).trans (Part.setBay_bay p b _)

theorem Part.rearmed_bay_ne (p : Part) {b d : Fin 6} (hd : d ≠ b) : (p.rearmed b).bay d = p.bay d :=
  (Part.withZones_bay _ _ d).trans (Part.setBay_bay_ne p b d _ hd)

theorem Part.rearmed_zones (p : Part) (b : Fin 6) :
    (p.rearmed b).arbiter.zones = Vector.ofFn fun k : Fin 32 =>
      if (p.bayEntry b).mask.getLsbD k.val then
        { p.arbiter.zones[k] with bayHold := p.arbiter.zones[k].bayHold.set b false }
      else p.arbiter.zones[k] :=
  Part.withZones_zones _ _

theorem Part.rearmed_gate (p : Part) (b : Fin 6) : (p.rearmed b).gate = p.gate := Part.withZones_gate _ _

theorem Part.rearmed_hooks (p : Part) (b : Fin 6) : (p.rearmed b).hooks = p.hooks := Part.withZones_hooks _ _

theorem Part.rearmed_driver (p : Part) (b : Fin 6) : (p.rearmed b).lines.driver = p.lines.driver :=
  congrArg Lines.driver (Part.withZones_lines _ _)

theorem Part.rearm_of_no_waiters {p : Part} {b : Fin 6} (hsafe : p.lines.driver[b].accepted = .active)
    (hw : ∀ k : Fin 32, (p.bayEntry b).mask.getLsbD k.val = true → p.arbiter.zones[k].waiters = []) :
    p.rearm b = (p.rearmed b).deriveOnce b := by
  have hclear := Part.clearBayHold_of_no_waiters
    (p.setBay b { p.bay b with rearmAt := none, causes := { (p.bay b).causes with driver := false } }) b (p.bayEntry b).mask hw
  have hderive := (p.rearmed b).derive_of_safe b (by rw [Part.rearmed_driver]; exact hsafe)
  rw [← hderive, Part.rearm]
  exact congrArg (fun q => Part.derive q b) hclear

/-- A lamp command turned over, its check delay started (R72, R157). -/
def OutLine.turned (o : OutLine) : OutLine := { o with commanded := !o.commanded, delay := some 0 }

theorem Part.expireFlash_of_due {p : Part} {b : Fin 6} (h : p.flashDue b = true) :
    p.expireFlash b =
      ({ p with lines := { p.lines with red := p.lines.red.set b p.lines.red[b].turned } }.setBay b
        { p.bay b with flashAt := some (p.now + BitVec.ofNat 32
          (if p.lines.red[b].commanded then (p.bayEntry b).flashOff else (p.bayEntry b).flashOn)) }) := by
  have hcommand : p.lines.red[b].command (!p.lines.red[b].commanded) = p.lines.red[b].turned := by
    unfold OutLine.command
    exact if_neg (by cases p.lines.red[b].commanded <;> decide)
  rw [Part.expireFlash, if_pos h]
  simp only [Part.flash, hcommand]
  cases hon : p.lines.red[b].commanded <;> rfl

/-- Settles O29. -/
theorem bayTimersExpire : Obligations.BayTimersExpire := by
  unfold Obligations.BayTimersExpire
  intro s b at_ hr hq hp
  refine ⟨fun hre hsafe hw => ?_, fun hfl => ?_⟩
  · have hdue : s.part.rearmDue b = true := by simp only [Part.rearmDue, hre, Option.any_some]; exact hp
    have hrearm := Part.rearm_of_no_waiters hsafe hw
    have hexec : exec (.reArmExpiry b) s = .next (s.withPart (s.part.rearm b)) := by
      rw [exec_reArmExpiry]
      refine State.act_eq hr ?_
      rw [Part.expireRearm, whenDue_of_quiet hq]
      exact if_pos hdue
    obtain ⟨flashAt, hbay⟩ := (s.part.rearmed b).deriveOnce_bay b
    have honly := (s.part.rearmed b).deriveOnce_derivesOnly b
    have hkeeps := (s.part.rearm_keeps (S := Scope.wide) b).sameTables
    have hstate := (s.part.rearmed b).deriveOnce_state b
    have hne : ∀ d, d ≠ b → ((s.part.rearmed b).deriveOnce b).bay d = s.part.bay d := fun d hd =>
      (Part.deriveOnce_bay_ne _ hd).trans (s.part.rearmed_bay_ne hd)
    rw [s.part.rearmed_bay] at hbay
    rw [hrearm] at hexec hkeeps
    refine ⟨_, hexec, rfl, congrArg BayRecord.rearmAt hbay, congrArg BayRecord.causes hbay, hstate, ?_, ?_, hne, ?_,
      honly.gate.trans (s.part.rearmed_gate b), honly.hooks.trans (s.part.rearmed_hooks b), hkeeps⟩
    · have hplan := congrArg BayRecord.plan hbay
      exact hplan
    · have hfacts := congrArg BayRecord.pollFacts hbay
      exact hfacts
    · have hzones := congrArg Arbiter.zones honly.arbiter
      exact hzones.trans (s.part.rearmed_zones b)
  · rw [exec_flashTimerExpiry]
    refine State.act_eq hr ?_
    have hdue : s.part.flashDue b = true := by simp only [Part.flashDue, hfl, Option.any_some]; exact hp
    exact Part.expireFlash_of_due hdue

/-! ## O31 -/

theorem InputFilter.sample_eq (i : InputFilter) (level : Bool) :
    i.sample level = { i with last := level, run := if level = i.last then min 3 (i.run + 1) else 1 } := by
  unfold InputFilter.sample
  split
  next h => rw [h]
  next => rfl

theorem Part.acceptLevel_of_not_due {p : Part} {n : Nat} (h : p.levelDue n = false) : p.acceptLevel n = p := by
  unfold Part.levelDue at h
  unfold Part.acceptLevel
  cases ho : p.lines.output n with
  | some o =>
    simp only [ho] at h
    simp only [h, Bool.false_eq_true, if_false]
  | none =>
    cases hb : driverBay n with
    | some b =>
      simp only [ho, hb] at h
      simp only [h, Bool.false_eq_true, if_false]
    | none => rfl

theorem Part.endDelay_of_not_due {p : Part} {n : Nat} (h : p.delayDue n = false) : p.endDelay n = p := by
  unfold Part.delayDue at h
  unfold Part.endDelay
  cases ho : p.lines.output n with
  | none => rfl
  | some o =>
    rw [ho, Option.any_some, beq_eq_false_iff_ne] at h
    exact if_neg h

/-- A walk that changes nothing at any place. -/
theorem foldl_self {α β : Type} {f : β → α → β} {b : β} {l : List α} (h : ∀ a ∈ l, f b a = b) : l.foldl f b = b := by
  induction l with
  | nil => rfl
  | cons a as ih =>
    rw [List.foldl_cons, h a List.mem_cons_self]
    exact ih fun x hx => h x (List.mem_cons_of_mem _ hx)

theorem Part.settleLines_of_none {p : Part} (h : ∀ n ∈ lineList, p.levelDue n = false ∧ p.delayDue n = false) :
    p.settleLines = p := by
  rw [Part.settleLines, foldl_self fun n hn => Part.acceptLevel_of_not_due (h n hn).1]
  exact foldl_self fun n hn => Part.endDelay_of_not_due (h n hn).2

/-- Settles O31. -/
theorem filterTakesSamples : Obligations.FilterTakesSamples := by
  unfold Obligations.FilterTakesSamples
  intro s levels hr sampled output
  rw [exec_filterSample]
  refine ⟨fun hp hq hnone => ?_, fun hp => ?_⟩
  · refine ⟨s.part.lines.sample levels s.part.mgmt.clock s.part.params.sampleInterval, State.act_eq hr ?_, fun c => ?_,
      fun b => ⟨?_, ?_, ?_⟩, rfl⟩
    · have hdue : passed s.part.now s.part.lines.nextSample = true := hp
      rw [Part.sampleInputs, whenDue_of_quiet hq, if_pos hdue, Part.takeSamples, if_pos hdue]
      simp only [Part.settleLines_of_none hnone]
      rfl
    · simp [Lines.sample, OutLine.sample, InputFilter.sample_eq, output, sampled]
    · simp [Lines.sample, OutLine.sample, InputFilter.sample_eq, output, sampled]
    · simp [Lines.sample, OutLine.sample, InputFilter.sample_eq, output, sampled]
    · simp [Lines.sample, InputFilter.sample_eq, sampled]
  · refine State.act_eq_self hr ?_
    have hdue : passed s.part.now s.part.lines.nextSample = false := hp
    simp only [Part.sampleInputs, Part.whenDue, hdue, Bool.not_false, if_true]

/-! ## O32 -/

theorem Lines.output_setOutput {l : Lines} {n : Nat} {o o' : OutLine} (h : l.output n = some o) :
    (l.setOutput n o').output n = some o' := by
  unfold Lines.output at h ⊢
  unfold Lines.setOutput
  by_cases h1 : n < 4
  · simp [h1]
  · by_cases h2 : 8 ≤ n ∧ n < 14
    · simp [h1, h2]
    · by_cases h3 : 16 ≤ n ∧ n < 22
      · simp [h1, h2, h3]
      · simp [h1, h2, h3] at h

theorem Lines.setOutput_setOutput (l : Lines) (n : Nat) (o o' : OutLine) :
    (l.setOutput n o).setOutput n o' = l.setOutput n o' := by
  unfold Lines.setOutput
  by_cases h1 : n < 4
  · simp [h1]
  · by_cases h2 : 8 ≤ n ∧ n < 14
    · simp [h1, h2]
    · by_cases h3 : 16 ≤ n ∧ n < 22
      · simp [h1, h2, h3]
      · simp [h1, h2, h3]

theorem Level.of_eq (b : Bool) : Level.of b = if b then .active else .inactive := rfl

theorem Level.of_code (b : Bool) : (Level.of b).code = if b then 1 else 0 := by cases b <;> rfl

/-- The comparison of an output that has just been written (R72). -/
theorem Part.compareLine_setOutput {p : Part} {n : Nat} {o o' : OutLine} (h : p.lines.output n = some o) :
    (p.setOutput n o').compareLine n =
      let q := { p with lines := p.lines.setOutput n o' }
      if p.lineConfigured n = false ∨ o'.input.accepted = .unknown then q
      else if o'.input.accepted = (if o'.commanded then .active else .inactive) then
        { q with lines := p.lines.setOutput n { o' with fault := false } }
      else if o'.fault then q
      else { q with lines := p.lines.setOutput n { o' with fault := true } }.notify .lineFault n
        (if o'.commanded then 1 else 0) o'.input.accepted.code 0 := by
  have ho : (p.setOutput n o').lines.output n = some o' := Lines.output_setOutput h
  have hc : (p.setOutput n o').lineConfigured n = p.lineConfigured n := rfl
  have hset : ∀ o'', (p.setOutput n o').setOutput n o'' = p.setOutput n o'' := fun o'' =>
    congrArg (fun ls => { p with lines := ls }) (Lines.setOutput_setOutput p.lines n o' o'')
  have hcond : (!p.lineConfigured n || o'.input.accepted == .unknown) = true ↔
      p.lineConfigured n = false ∨ o'.input.accepted = .unknown := by simp
  simp only [Part.compareLine, ho, hc, hset, hcond, Level.of_code]
  simp only [Level.of_eq]
  simp only [eq_comm (a := if o'.commanded = true then Level.active else Level.inactive)]
  rfl

/-- Settles O32. -/
theorem readbacksAreCompared : Obligations.ReadbacksAreCompared := by
  unfold Obligations.ReadbacksAreCompared
  intro s n o hr hq ho compared accepted
  refine ⟨fun hrun hne => ?_, fun hd => ?_, fun hd => ?_⟩
  · rw [exec_inputLevelAccepted]
    refine State.act_eq hr ?_
    have hdue : o.input.due = true := by
      have : o.input.accepted ≠ Level.of o.input.last := hne
      simp [InputFilter.due, hrun, this]
    have hlevel : s.part.levelDue n = true := by simp only [Part.levelDue, ho, hdue]
    rw [Part.inputAccepted, whenDue_of_quiet hq, if_pos hlevel]
    simp only [Part.acceptLevel, ho, hdue, if_true, Part.acceptReadback, Option.isNone_iff_eq_none]
    split
    next => exact Part.compareLine_setOutput ho
    next => rfl
  · rw [exec_checkDelayEnd]
    refine State.act_eq hr ?_
    simp only [Part.endDelay, ho, hd, if_true]
    exact Part.compareLine_setOutput ho
  · rw [exec_checkDelayEnd]
    refine State.act_eq_self hr ?_
    simp only [Part.endDelay, ho, if_neg hd]

end Sys2Proof.Machine
end

section
/-! O17 and O28. The hook states that a window, the gripper and the weigh expiry give. -/

namespace Sys2Proof.Machine

/-! ## What an answer of the engine leaves untouched -/

/-- The scope of an operation that writes no crane record, no poll fact and no input filter. -/
def Scope.tight : Scope := ⟨fun _ => False, False, False, False⟩

theorem Part.Keeps.records_eq {p q : Part} (h : p.Keeps Scope.tight q) : q.tracker.records = p.tracker.records :=
  h.records.resolve_left id

theorem Part.Keeps.pollFacts_eq {p q : Part} (h : p.Keeps Scope.tight q) (b : Fin 6) :
    (q.bay b).pollFacts = (p.bay b).pollFacts := (h.polls.resolve_left id).1 b

theorem Part.Keeps.scan_eq {p q : Part} (h : p.Keeps Scope.tight q) : q.bays.scan = p.bays.scan :=
  (h.polls.resolve_left id).2

theorem Part.giveAnswer_form (p : Part) (a : ReplyBody) :
    ∃ (l : Link) (e : Engine), p.giveAnswer a = { p with link := l, engine := e } := by
  unfold Part.giveAnswer
  split
  · exact ⟨_, _, rfl⟩
  · exact ⟨_, _, rfl⟩

theorem Part.reportWeighed_form (p : Part) (c : Fin 4) (coil : Coil) :
    ∃ (l : Link) (e : Engine), p.reportWeighed c coil = { p with link := l, engine := e } := by
  unfold Part.reportWeighed
  split
  · split
    · exact ⟨_, _, rfl⟩
    next q _ _ =>
      obtain ⟨l, e, h⟩ := (p.setDeferred c none).giveAnswer_form (q.refusal .weightUnproven)
      exact ⟨l, e, h⟩
  · exact ⟨_, _, rfl⟩

theorem Part.reportEmptied_form (p : Part) (c : Fin 4) :
    ∃ (l : Link) (e : Engine), p.reportEmptied c = { p with link := l, engine := e } := by
  unfold Part.reportEmptied
  split
  next q _ =>
    obtain ⟨l, e, h⟩ := (p.setDeferred c none).giveAnswer_form (q.refusal .weightUnproven)
    exact ⟨l, e, h⟩
  · exact ⟨_, _, rfl⟩

theorem Part.reportEmptied_of_none {p : Part} {c : Fin 4} (h : p.engine.deferred[c] = none) : p.reportEmptied c = p := by
  unfold Part.reportEmptied
  rw [h]

theorem Part.activateStaged_of_none {p : Part} {c : Fin 4} (h : (p.hook c).staged = none) : p.activateStaged c = p := by
  have hactivate : (p.hook c).activate = p.hook c := by
    unfold Hook.activate
    rw [h]
  rw [Part.activateStaged, hactivate]
  exact congrArg (fun hs => { p with hooks := hs }) (Vector.set_getElem_self c.isLt)

theorem Part.setHook_setHook (p : Part) (c : Fin 4) (h k : Hook) : (p.setHook c h).setHook c k = p.setHook c k :=
  congrArg (fun hs => { p with hooks := hs }) (Vector.set_set ..)

/-! ## The coil record -/

theorem Part.formCoil_weight (p : Part) (c : Fin 4) (w : Nat) (q : Quality) : (p.formCoil c w q).2.coil.weight = w := by
  unfold Part.formCoil
  split
  · rfl
  · split <;> rfl
  · rfl

theorem Part.formCoil_quality (p : Part) (c : Fin 4) (w : Nat) (q : Quality) : (p.formCoil c w q).2.coil.quality = q := by
  unfold Part.formCoil
  split
  · rfl
  · split <;> rfl
  · rfl

/-- Forming the coil record may only free the source slot (R88, R106). -/
theorem Part.formCoil_form (p : Part) (c : Fin 4) (w : Nat) (q : Quality) :
    ∃ m : SlotMap, (p.formCoil c w q).1 = { p with slots := m } := by
  unfold Part.formCoil
  split
  · exact ⟨_, rfl⟩
  · split
    · exact ⟨_, rfl⟩
    · exact ⟨_, rfl⟩
  · exact ⟨_, rfl⟩

theorem Part.formCoil_of_no_source {p : Part} {c : Fin 4} (h : (p.hook c).source = none) (w : Nat) (q : Quality) :
    p.formCoil c w q = (p, Formed.anonymous w q) := by
  unfold Part.formCoil
  rw [h]

theorem Part.formCoil_of_slot {p : Part} {c : Fin 4} {i tag : Nat} {g : Geometry} {coil : Coil} {placed : Time}
    (h : (p.hook c).source = some ⟨.slot i, tag⟩) (hs : p.slots.slot i = some ⟨g, .outgoing coil placed c⟩) (w : Nat)
    (q : Quality) :
    p.formCoil c w q =
      ({ p with slots := p.slots.setContents i .free },
        ⟨{ coil with weight := w, quality := q }, some coil.weight, 1, false⟩) := by
  have htake : p.slots.take i c = (some coil, p.slots.setContents i .free) := by
    simp only [SlotMap.take, hs, if_true]
  simp only [Part.formCoil, h, htake]

/-- A hook on the way to WEIGHED, before its coil record is formed (R86). -/
def Part.weighing (p : Part) (c : Fin 4) : Part := p.setHook c { p.hook c with state := .weighed, lift := none, quiet := 0 }

theorem Part.weighing_hook (p : Part) (c : Fin 4) :
    (p.weighing c).hook c = { p.hook c with state := .weighed, lift := none, quiet := 0 } := p.setHook_hook c _

/-- A weighing handed on: WEIGHED, WEIGHT_MISMATCH and the report to the engine (R86, R89). -/
def Part.tellWeighed (p : Part) (c : Fin 4) (weight : Nat) (f : Formed) : Part :=
  let q := p.notify .weighed c.val weight f.mark f.coil.idValue
  let r :=
    match f.expected with
    | some e => if q.params.mismatch < apart weight e then q.notify .weightMismatch c.val e weight f.coil.idValue else q
    | none => q
  r.reportWeighed c f.coil

theorem Part.tellWeighed_form (p : Part) (c : Fin 4) (w : Nat) (f : Formed) :
    ∃ (l : Link) (e : Engine) (ns : List Notice) (lost : Nat),
      p.tellWeighed c w f = { p with link := l, engine := e, mgmt := { p.mgmt with notices := ns, lost := lost } } := by
  unfold Part.tellWeighed
  obtain ⟨l1, ns1, n1, h1⟩ := p.notify_form .weighed c.val w f.mark f.coil.idValue
  generalize p.notify .weighed c.val w f.mark f.coil.idValue = q at h1
  have hmismatch : ∃ (l : Link) (ns : List Notice) (n : Nat),
      (match f.expected with
        | some e => if q.params.mismatch < apart w e then q.notify .weightMismatch c.val e w f.coil.idValue else q
        | none => q) = { p with link := l, mgmt := { p.mgmt with notices := ns, lost := n } } := by
    subst h1
    split
    · split
      · exact Part.notify_form { p with link := l1, mgmt := { p.mgmt with notices := ns1, lost := n1 } } _ _ _ _ _
      · exact ⟨_, _, _, rfl⟩
    · exact ⟨_, _, _, rfl⟩
  obtain ⟨l2, ns2, n2, h2⟩ := hmismatch
  obtain ⟨l, e, h3⟩ := Part.reportWeighed_form { p with link := l2, mgmt := { p.mgmt with notices := ns2, lost := n2 } } c f.coil
  exact ⟨l, e, ns2, n2, (congrArg (fun r : Part => r.reportWeighed c f.coil) h2).trans h3⟩

theorem Part.becomeWeighed_eq (p : Part) (c : Fin 4) (w : Nat) (q : Quality) :
    p.becomeWeighed c w q =
      let r := (p.weighing c).formCoil c w q
      (r.1.setHook c { r.1.hook c with coil := some r.2.coil, source := none }).tellWeighed c w r.2 := rfl

/-- What becoming WEIGHED writes beside the notices and the engine's report: the hook, and the source slot (R86 to R89). -/
theorem Part.becomeWeighed_form (p : Part) (c : Fin 4) (w : Nat) (q : Quality) :
    ∃ (l : Link) (e : Engine) (ns : List Notice) (lost : Nat),
      p.becomeWeighed c w q =
        { p.setHook c { p.hook c with
            state := .weighed, lift := none, quiet := 0, coil := some ((p.weighing c).formCoil c w q).2.coil, source := none } with
          slots := ((p.weighing c).formCoil c w q).1.slots, link := l, engine := e,
          mgmt := { p.mgmt with notices := ns, lost := lost } } := by
  obtain ⟨m, hm⟩ := (p.weighing c).formCoil_form c w q
  rw [Part.becomeWeighed_eq]
  simp only []
  obtain ⟨l, e, ns, lost, h⟩ := Part.tellWeighed_form (((p.weighing c).formCoil c w q).1.setHook c
    { ((p.weighing c).formCoil c w q).1.hook c with coil := some ((p.weighing c).formCoil c w q).2.coil, source := none }) c w
    ((p.weighing c).formCoil c w q).2
  refine ⟨l, e, ns, lost, h.trans ?_⟩
  generalize (p.weighing c).formCoil c w q = r at hm
  obtain ⟨q1, f⟩ := r
  simp only [] at hm ⊢
  subst hm
  have hset := p.setHook_setHook c { p.hook c with state := .weighed, lift := none, quiet := 0 }
    { p.hook c with state := .weighed, lift := none, quiet := 0, coil := some f.coil, source := none }
  have hhook : ({ p.weighing c with slots := m } : Part).hook c = { p.hook c with state := .weighed, lift := none, quiet := 0 } :=
    p.weighing_hook c
  rw [hhook]
  exact congrArg (fun x : Part => { x with
    slots := m, link := l, engine := e, mgmt := { p.mgmt with notices := ns, lost := lost } }) hset

/-! ## O28 -/

/-- Settles O28. -/
theorem weighTimeoutWeighsUnsettled : Obligations.WeighTimeoutWeighsUnsettled := by
  unfold Obligations.WeighTimeoutWeighsUnsettled
  intro s c l w ww hr hq hst hl hp hw hww
  have hnet : (s.part.hook c).lastNet = some ww.net := by
    rw [Hook.lastNet, hw, Option.bind_some, hww, Option.map_some]
  have hdue : s.part.weighDue c = true := by
    have hpassed : passed s.part.now l.expiry = true := hp
    rw [Part.weighDue, hst, hl, hnet, Option.any_some, hpassed]
    rfl
  let counted := s.part.setHook c { s.part.hook c with unsettled := bump (s.part.hook c).unsettled }
  have hcounted : counted.hook c = { s.part.hook c with unsettled := bump (s.part.hook c).unsettled } := s.part.setHook_hook c _
  have hexec : exec (.weighExpiry c) s = .next (s.withPart (counted.becomeWeighed c ww.net .unsettled)) := by
    rw [exec_weighExpiry]
    refine State.act_eq hr ?_
    rw [Part.expireWeigh, whenDue_of_quiet hq, if_pos hdue, Part.weighUnsettled, hnet]
  obtain ⟨link, e, ns, lost, hform⟩ := counted.becomeWeighed_form c ww.net .unsettled
  refine ⟨_, ((counted.weighing c).formCoil c ww.net .unsettled).2.coil, hexec, rfl, ?_, Part.formCoil_weight _ _ _ _,
    Part.formCoil_quality _ _ _ _, fun hsrc => ?_, fun d hd => ?_, ?_, ?_⟩
  · have hhook : (counted.becomeWeighed c ww.net .unsettled).hook c = _ :=
      (congrArg (fun q : Part => q.hook c) hform).trans (counted.setHook_hook c _)
    rw [State.withPart, hhook, hcounted]
  · rw [Part.formCoil_of_no_source]
    · rfl
    · rw [Part.weighing_hook, hcounted]
      exact hsrc
  · have hhook : (counted.becomeWeighed c ww.net .unsettled).hook d = _ :=
      (congrArg (fun q : Part => q.hook d) hform).trans (counted.setHook_hook_ne c d _ hd)
    exact hhook.trans (s.part.setHook_hook_ne c d _ hd)
  · rw [State.withPart, hform]
    rfl
  · exact ((s.part.setHook_keeps (S := Scope.wide) c _).trans (counted.becomeWeighed_keeps c ww.net .unsettled)).sameTables

/-! ## O17 -/

/-- A quiet window of a LIFTING hook that makes it WEIGHED (R86). -/
theorem Part.judgeLift_weighs {p : Part} {c : Fin 4} {w : WindowWeights} (hst : (p.hook c).state = .lifting)
    (he : p.params.engage ≤ w.net) (hq : 2 ≤ (p.hook c).quiet) : p.judgeLift c true w = p.becomeWeighed c w.net w.quality := by
  simp [Part.judgeLift, hst, he, hq]

theorem Part.becomeWeighed_hook (p : Part) (c : Fin 4) (w : Nat) (q : Quality) :
    (p.becomeWeighed c w q).hook c = { p.hook c with
      state := .weighed, lift := none, quiet := 0, coil := some ((p.weighing c).formCoil c w q).2.coil, source := none } := by
  obtain ⟨l, e, ns, lost, h⟩ := p.becomeWeighed_form c w q
  rw [h]
  exact p.setHook_hook c _

theorem Part.becomeWeighed_slots (p : Part) (c : Fin 4) (w : Nat) (q : Quality) :
    (p.becomeWeighed c w q).slots = ((p.weighing c).formCoil c w q).1.slots := by
  obtain ⟨l, e, ns, lost, h⟩ := p.becomeWeighed_form c w q
  rw [h]

theorem Part.clearSource_of_entry {p : Part} {c : Fin 4} {e tag : Nat} {d : EntryData}
    (h : (p.hook c).source = some ⟨.entry e d, tag⟩) : p.clearSource c = p.setHook c { p.hook c with source := none } := by
  simp only [Part.clearSource, h]

theorem Part.clearSource_of_slot {p : Part} {c : Fin 4} {i tag : Nat} {g : Geometry} {coil : Coil} {placed : Time}
    (h : (p.hook c).source = some ⟨.slot i, tag⟩) (hs : p.slots.slot i = some ⟨g, .outgoing coil placed c⟩) :
    p.clearSource c = { p.setHook c { p.hook c with source := none } with slots := p.slots.setContents i (.occupied coil placed) } := by
  have hrevert : p.slots.revertSource i c = p.slots.setContents i (.occupied coil placed) := by
    simp only [SlotMap.revertSource, hs, if_true]
  simp only [Part.clearSource, h, Part.onSlots, Part.setHook_slots, hrevert]

theorem Part.clearSource_engine (p : Part) (c : Fin 4) : (p.clearSource c).engine = p.engine := by
  unfold Part.clearSource
  split
  · rfl
  · simp only []
    split <;> rfl

theorem Part.clearSource_hook (p : Part) (c : Fin 4) : (p.clearSource c).hook c = { p.hook c with source := none } := by
  unfold Part.clearSource
  split
  next h => rw [← h]
  · simp only []
    split <;> exact p.setHook_hook c _

/-- A hook back at EMPTY with no staged table and no deferred request: only its source is at stake (R90). -/
theorem Part.returnEmpty_eq {p : Part} {c : Fin 4} (hst : (p.hook c).staged = none) (hd : p.engine.deferred[c] = none) :
    p.returnEmpty c =
      let q := p.setHook c { p.hook c with state := .empty, quiet := 0, lift := none }
      if q.sourceActive c then q else q.clearSource c := by
  have hquiet : ∀ q : Part, (q.hook c).staged = none → q.engine.deferred[c] = none → (q.reportEmptied c).activateStaged c = q :=
    fun q hs he => by rw [Part.reportEmptied_of_none he, Part.activateStaged_of_none hs]
  simp only [Part.returnEmpty]
  split
  · exact hquiet _ ((congrArg Hook.staged (p.setHook_hook c _)).trans hst) hd
  · refine hquiet _ ?_ ?_
    · rw [Part.clearSource_hook, Part.setHook_hook]
      exact hst
    · rw [Part.clearSource_engine]
      exact hd

theorem Part.sourceActive_of_no_source {p : Part} {c : Fin 4} (h : (p.hook c).source = none) : p.sourceActive c = false := by
  unfold Part.sourceActive
  rw [h]
  cases p.activeOrder c <;> rfl

theorem Part.sourceActive_iff {p : Part} {c : Fin 4} {place : SourcePlace} {tag : Nat} (h : (p.hook c).source = some ⟨place, tag⟩) :
    p.sourceActive c = true ↔ ∃ o, p.activeOrder c = some o ∧ o.tag = tag := by
  rw [Part.sourceActive, Option.any_eq_true]
  refine exists_congr fun o => and_congr_right fun _ => ?_
  rw [h, Option.any_some, beq_iff_eq]
  exact eq_comm

theorem Part.judgeSetDown_of_weighed {p : Part} {c : Fin 4} (hst : (p.hook c).state = .weighed) (hg : (p.hook c).gripper = .opened) :
    p.judgeSetDown c = if (p.hook c).lastNet.any (fun n => decide (n < p.params.release)) then p.setDown c else p := by
  simp only [Part.judgeSetDown, hst, hg, beq_self_eq_true, Bool.true_and]

/-- A hook whose gripper flag has been taken (R84). -/
def Part.withGripper (p : Part) (c : Fin 4) (g : Gripper) : Part := p.setHook c { p.hook c with gripper := g }

theorem Part.withGripper_hook (p : Part) (c : Fin 4) (g : Gripper) : (p.withGripper c g).hook c = { p.hook c with gripper := g } :=
  p.setHook_hook c _

theorem Part.withGripper_state (p : Part) (c : Fin 4) (g : Gripper) : ((p.withGripper c g).hook c).state = (p.hook c).state :=
  by rw [Part.withGripper_hook]

/-- What a gripper flag does, by the hook state (R84). -/
theorem Part.takeGripper_eq (p : Part) (c : Fin 4) (g : Gripper) :
    p.takeGripper c g =
      match (p.hook c).state, g with
      | .empty, .closed => (p.withGripper c g).setHook c { p.hook c with gripper := g, state := .gripped, quiet := 0 }
      | .gripped, .opened => (p.withGripper c g).returnEmpty c
      | .lifting, .opened => (p.withGripper c g).returnEmpty c
      | .weighed, .opened => (p.withGripper c g).judgeSetDown c
      | _, _ => p.withGripper c g := by
  have hunfold : p.takeGripper c g =
      match ((p.withGripper c g).hook c).state, g with
      | .empty, .closed => (p.withGripper c g).setHook c { (p.withGripper c g).hook c with state := .gripped, quiet := 0 }
      | .empty, .opened => p.withGripper c g
      | .gripped, .opened => (p.withGripper c g).returnEmpty c
      | .lifting, .opened => (p.withGripper c g).returnEmpty c
      | .gripped, .closed => p.withGripper c g
      | .lifting, .closed => p.withGripper c g
      | .weighed, .opened => (p.withGripper c g).judgeSetDown c
      | .weighed, .closed => p.withGripper c g := rfl
  rw [hunfold, Part.withGripper_state, Part.withGripper_hook]
  cases (p.hook c).state <;> cases g <;> rfl

theorem Part.takeGripper_grips {p : Part} {c : Fin 4} (h : (p.hook c).state = .empty) :
    p.takeGripper c .closed =
      (p.withGripper c .closed).setHook c { p.hook c with gripper := .closed, state := .gripped, quiet := 0 } := by
  rw [Part.takeGripper_eq, h]

theorem Part.takeGripper_stays {p : Part} {c : Fin 4} (h : (p.hook c).state = .empty) :
    p.takeGripper c .opened = p.withGripper c .opened := by
  rw [Part.takeGripper_eq, h]

theorem Part.takeGripper_closed {p : Part} {c : Fin 4} (h : (p.hook c).state ≠ .empty) :
    p.takeGripper c .closed = p.withGripper c .closed := by
  rw [Part.takeGripper_eq]
  split <;> simp_all

/-- The gripper of a GRIPPED or LIFTING hook opens (R84, R90). -/
theorem Part.takeGripper_returns {p : Part} {c : Fin 4} (h : (p.hook c).state = .gripped ∨ (p.hook c).state = .lifting) :
    p.takeGripper c .opened = (p.withGripper c .opened).returnEmpty c := by
  rw [Part.takeGripper_eq]
  rcases h with h | h <;> rw [h]

/-- The gripper of a WEIGHED hook opens (R84, R91). -/
theorem Part.takeGripper_weighed {p : Part} {c : Fin 4} (h : (p.hook c).state = .weighed) :
    p.takeGripper c .opened =
      if (p.hook c).lastNet.any (fun n => decide (n < p.params.release)) then (p.withGripper c .opened).setDown c
      else p.withGripper c .opened := by
  rw [Part.takeGripper_eq, h]
  simp only []
  rw [Part.judgeSetDown_of_weighed ((p.withGripper_state c .opened).trans h) (congrArg Hook.gripper (p.withGripper_hook c .opened)),
    Part.withGripper_hook]
  rfl

/-- A GRIPPED or LIFTING hook that opens with no staged table and no deferred request (R84, R90). -/
theorem Part.takeGripper_bare {p : Part} {c : Fin 4} (h : (p.hook c).state = .gripped ∨ (p.hook c).state = .lifting)
    (hst : (p.hook c).staged = none) (hd : p.engine.deferred[c] = none) :
    p.takeGripper c .opened =
      let q := p.setHook c { p.hook c with gripper := .opened, state := .empty, quiet := 0, lift := none }
      if q.sourceActive c then q else q.clearSource c := by
  rw [Part.takeGripper_returns h, Part.returnEmpty_eq]
  · rw [Part.withGripper_hook, Part.withGripper, Part.setHook_setHook]
  · rw [Part.withGripper_hook]
    exact hst
  · exact hd

/-- Settles O17. -/
theorem windowsLiftAndWeigh : Obligations.WindowsLiftAndWeigh := by
  unfold Obligations.WindowsLiftAndWeigh
  refine ⟨fun p c quiet w => ⟨fun hst hn => ?_, fun hst he => ?_, fun hst hn => ?_, fun hst he => ?_, fun hst he hq => ?_,
    fun hst he hq => ?_⟩, fun p c => ⟨fun hst => ⟨?_, ?_⟩, Part.takeGripper_closed, fun hst => ⟨fun n hn hlt => ?_, fun hge => ?_⟩,
    fun hst hstaged hd => ⟨fun hsrc => ?_, fun place tag hsrc => ⟨fun hact => ?_, fun hno => ⟨fun e d hp => ?_,
      fun i g coil placed hp hs => ?_⟩⟩⟩⟩⟩
  · simp [Part.judgeLift, hst, Nat.not_le.2 hn]
  · simp only [Part.judgeLift, hst, he, decide_true, if_true]
    rfl
  · simp [Part.judgeLift, hst, Nat.not_le.2 hn]
  · simp [Part.judgeLift, hst, he]
  · simp [Part.judgeLift, hst, he, Nat.not_le.2 hq]
  · rw [Part.judgeLift_weighs hst he hq, Part.becomeWeighed_slots]
    refine ⟨_, Part.becomeWeighed_hook .., Part.formCoil_weight .., Part.formCoil_quality .., fun hsrc => ?_,
      fun i tag g q placed hsrc hs => ?_⟩
    · rw [Part.formCoil_of_no_source]
      · rfl
      · rw [Part.weighing_hook]
        exact hsrc
    · have hsource : ((p.weighing c).hook c).source = some ⟨.slot i, tag⟩ := by
        rw [Part.weighing_hook]
        exact hsrc
      rw [Part.formCoil_of_slot hsource hs]
      refine ⟨rfl, ?_⟩
      have hslot := SlotMap.slot_setContents p.slots i i .free
      rw [if_pos rfl, hs] at hslot
      exact hslot
  · exact (Part.takeGripper_grips hst).trans (p.setHook_setHook c _ _)
  · exact Part.takeGripper_stays hst
  · rw [Part.takeGripper_weighed hst, hn]
    exact if_pos (decide_eq_true hlt)
  · rw [Part.takeGripper_weighed hst]
    refine if_neg fun hany => ?_
    rw [Option.any_eq_true] at hany
    obtain ⟨n, hn, hlt⟩ := hany
    exact absurd (of_decide_eq_true hlt) (Nat.not_lt.2 (hge n hn))
  all_goals
    rw [Part.takeGripper_bare hst hstaged hd]
    simp only []
    have hhook := p.setHook_hook c { p.hook c with gripper := .opened, state := .empty, quiet := 0, lift := none }
    have hsource : ((p.setHook c { p.hook c with gripper := .opened, state := .empty, quiet := 0, lift := none }).hook c).source =
        (p.hook c).source := by rw [hhook]
  · rw [Part.clearSource_of_none _ _ (hsource.trans hsrc), ite_self]
  · exact if_pos ((Part.sourceActive_iff (hsource.trans hsrc)).2 hact)
  · subst hp
    rw [if_neg fun h => ?_, Part.clearSource_of_entry (hsource.trans hsrc), hhook, Part.setHook_setHook]
    obtain ⟨o, ho, htag⟩ := (Part.sourceActive_iff (hsource.trans hsrc)).1 h
    exact hno o ho htag
  · subst hp
    rw [if_neg fun h => ?_, Part.clearSource_of_slot (hsource.trans hsrc) hs, hhook, Part.setHook_setHook]
    · rfl
    · obtain ⟨o, ho, htag⟩ := (Part.sourceActive_iff (hsource.trans hsrc)).1 h
      exact hno o ho htag

end Sys2Proof.Machine
end

section
/-! What a stop, the end of an order and the derivation of a bay's state may bring about: everything they leave standing, as one
relation, with the lemma of each operation. -/

namespace Sys2Proof.Machine

/-- A hook without what it is bound for. -/
def Hook.unbound (h : Hook) : Hook := { h with source := none, dest := none }

/-- A bay's record without its derived state, its timers, DRIVER, and what the placements of its plan have come to. -/
def BayRecord.facts (r : BayRecord) : BayRecord :=
  { r.bare with state := .empty, rearmAt := none, flashAt := none, causes := { r.causes with driver := false } }

/-- What stands after a reaction: the tables and records of the tracker, the grants, the engine, the driver inputs, the facts of the
bays and every hook but what it is bound for. Stop causes, DRIVER and the bay parts of the holds may only join. -/
structure Part.Reacts (p q : Part) : Prop where
  tracker : q.tracker = p.tracker
  params : q.params = p.params
  runs : q.arbiter.runs = p.arbiter.runs
  engine : q.engine = p.engine
  driver : q.lines.driver = p.lines.driver
  entries : q.bays.entries = p.bays.entries
  scan : q.bays.scan = p.bays.scan
  facts : ∀ b, (q.bay b).facts = (p.bay b).facts
  paused : ∀ b, (p.bay b).causes.driver = true → (q.bay b).causes.driver = true
  hooks : ∀ c, (q.hook c).unbound = (p.hook c).unbound
  causes : ∀ c x, (p.latch c).causes.has x = true → (q.latch c).causes.has x = true
  holds : ∀ (k : Fin 32) (b : Fin 6), p.arbiter.zones[k].bayHold[b] = true → q.arbiter.zones[k].bayHold[b] = true

theorem Part.Reacts.refl (p : Part) : p.Reacts p :=
  ⟨rfl, rfl, rfl, rfl, rfl, rfl, rfl, fun _ => rfl, fun _ => id, fun _ => rfl, fun _ _ => id, fun _ _ => id⟩

theorem Part.Reacts.trans {p q r : Part} (h : p.Reacts q) (k : q.Reacts r) : p.Reacts r where
  tracker := k.tracker.trans h.tracker
  params := k.params.trans h.params
  runs := k.runs.trans h.runs
  engine := k.engine.trans h.engine
  driver := k.driver.trans h.driver
  entries := k.entries.trans h.entries
  scan := k.scan.trans h.scan
  facts b := (k.facts b).trans (h.facts b)
  paused b := k.paused b ∘ h.paused b
  hooks c := (k.hooks c).trans (h.hooks c)
  causes c x := k.causes c x ∘ h.causes c x
  holds m b := k.holds m b ∘ h.holds m b

theorem Part.Reacts.ite {p q r : Part} (b : Bool) (h : p.Reacts q) (k : p.Reacts r) : p.Reacts (if b then q else r) := by
  cases b
  · exact k
  · exact h

theorem Part.reacts_foldl {α : Type} {f : Part → α → Part} (h : ∀ (p : Part) a, p.Reacts (f p a)) (l : List α) (p : Part) :
    p.Reacts (l.foldl f p) := by
  induction l generalizing p with
  | nil => exact .refl p
  | cons a as ih => exact (h p a).trans (ih (f p a))

/-- An operation that leaves the bays' records and the hooks as they are, but for the placements and the bindings. -/
theorem Part.Reacts.of_same {p q : Part} (tracker : q.tracker = p.tracker) (params : q.params = p.params)
    (arbiter : q.arbiter = p.arbiter) (engine : q.engine = p.engine) (driver : q.lines.driver = p.lines.driver)
    (bays : p.SameBays q) (hooks : ∀ c, (q.hook c).unbound = (p.hook c).unbound) (latches : q.gate.latches = p.gate.latches) :
    p.Reacts q where
  tracker := tracker
  params := params
  runs := by rw [arbiter]
  engine := engine
  driver := driver
  entries := bays.entries
  scan := bays.scan
  facts b := congrArg (fun r : BayRecord => { r with
    state := .empty, rearmAt := none, flashAt := none, causes := { r.causes with driver := false } }) (bays.records b)
  paused b h := by rw [bays.causes b]; exact h
  hooks := hooks
  causes c x h := by
    rw [Part.latch, latches]
    exact h
  holds k b h := by rw [arbiter]; exact h

/-! ## The operations of an order's end -/

section
variable (p : Part) (c : Fin 4)

theorem Part.setOrder_reacts (o : Option Order) : p.Reacts (p.setOrder c o) :=
  .of_same rfl rfl rfl rfl rfl (.of_eq rfl) (fun _ => rfl) rfl

theorem Part.dropTurn_reacts : p.Reacts (p.dropTurn c) := .of_same rfl rfl rfl rfl rfl (.of_eq rfl) (fun _ => rfl) rfl

theorem Part.onLink_reacts (f : Link → Link) : p.Reacts (p.onLink f) :=
  .of_same rfl rfl rfl rfl rfl (.of_eq rfl) (fun _ => rfl) rfl

theorem Part.onSlots_reacts (f : SlotMap → SlotMap) : p.Reacts (p.onSlots f) :=
  .of_same rfl rfl rfl rfl rfl (.of_eq rfl) (fun _ => rfl) rfl

theorem Part.notify_reacts (k : NoticeKind) (a v1 v2 v3 : Nat) : p.Reacts (p.notify k a v1 v2 v3) := by
  obtain ⟨l, ns, n, h⟩ := p.notify_form k a v1 v2 v3
  rw [h]
  exact .of_same rfl rfl rfl rfl rfl (.of_eq rfl) (fun _ => rfl) rfl

theorem Part.verdict_reacts (d : Fin 4) (tag : Nat) (k : VerdictKind) (why : Option Reason) (x y : Nat) :
    p.Reacts (p.verdict d tag k why x y) := by
  obtain ⟨l, vs, h⟩ := p.giveVerdict_form ⟨d, tag, k, why, x, y⟩
  rw [Part.verdict, h]
  exact .of_same rfl rfl rfl rfl rfl (.of_eq rfl) (fun _ => rfl) rfl

theorem Part.answerFrame_reacts (f : Frame) (a : Answer) (why : Option Reason) (data : List Byte) :
    p.Reacts (p.answerFrame f a why data) := by
  obtain ⟨l, r, h⟩ := p.answerFrame_form f a why data
  rw [h]
  exact .of_same rfl rfl rfl rfl rfl (.of_eq rfl) (fun _ => rfl) rfl

theorem Part.setHook_reacts {h : Hook} (hh : h.unbound = (p.hook c).unbound) : p.Reacts (p.setHook c h) := by
  refine .of_same rfl rfl rfl rfl rfl (.of_eq rfl) (fun d => ?_) rfl
  by_cases hd : d = c
  · rw [hd, Part.setHook_hook, hh]
  · rw [Part.setHook_hook_ne _ _ _ _ hd]

theorem Part.onPlan_reacts (b : Fin 6) {f : Plan → Plan} (hf : ∀ pl, (f pl).bare = pl.bare) : p.Reacts (p.onPlan b f) :=
  .of_same rfl rfl rfl rfl rfl (p.onPlan_sameBays b hf) (fun _ => rfl) rfl

theorem Part.setZone_holds (k : Nat) {z : Zone} (hz : z.bayHold = (p.zone k).bayHold) (i : Fin 32) :
    (p.setZone k z).arbiter.zones[i].bayHold = p.arbiter.zones[i].bayHold := by
  unfold Part.setZone
  split
  next h =>
    simp only [Fin.getElem_fin, Vector.getElem_set]
    split
    next hi =>
      subst hi
      exact hz.trans (congrArg Zone.bayHold (p.zone_fin i))
    · rfl
  · rfl

theorem Part.withdrawClaim_reacts : p.Reacts (p.withdrawClaim c) := by
  unfold Part.withdrawClaim
  split
  · exact .refl p
  next cl _ =>
    refine ⟨by simp, by simp, by simp [Part.setClaim, Part.setZone, apply_dite], by simp, by simp, by simp, by simp, fun b => by simp [Part.bay],
      fun b h => by simpa [Part.bay] using h, fun d => by simp [Part.hook], fun d x h => by simpa [Part.latch] using h, fun k b h => ?_⟩
    have hz := p.setZone_holds cl.zone (z := (p.zone cl.zone).dropWaiter c) rfl k
    exact (congrArg (fun s : BaySet => s[b]) hz).trans h

theorem Part.clearSource_reacts : p.Reacts (p.clearSource c) := by
  unfold Part.clearSource
  split
  · exact .refl p
  · simp only []
    have hset : p.Reacts (p.setHook c { p.hook c with source := none }) := p.setHook_reacts c rfl
    split
    · exact hset.trans (Part.onSlots_reacts _ _)
    · exact hset

theorem Part.revertSlotDest_reacts (i : Nat) : p.Reacts (p.revertSlotDest i c) := by
  unfold Part.revertSlotDest
  refine (p.onSlots_reacts fun _ => (p.slots.revertDest i c).1).trans ?_
  simp only []
  split
  · exact Part.notify_reacts _ _ _ _ _ _
  · exact .refl _

theorem Part.revertPlacement_reacts (b : Fin 6) (k : Nat) : p.Reacts (p.revertPlacement b k c) := by
  unfold Part.revertPlacement
  split
  · exact p.onPlan_reacts b fun pl => pl.setPlacement_bare k .planned
  · exact .refl p

theorem Part.clearDest_reacts : p.Reacts (p.clearDest c) := by
  unfold Part.clearDest
  split
  · exact .refl p
  · simp only []
    have hset : p.Reacts (p.setHook c { p.hook c with dest := none }) := p.setHook_reacts c rfl
    split
    · exact hset.trans (Part.revertSlotDest_reacts _ c _)
    · exact hset.trans (Part.revertPlacement_reacts _ c _ _)

theorem Part.endOrder_reacts (complete : Bool) (v : Option (VerdictKind × Option Reason)) : p.Reacts (p.endOrder c complete v) := by
  unfold Part.endOrder
  split
  · exact .refl p
  next o _ =>
    have hended : p.Reacts ((((p.setOrder c (some { o with state := .ended, pending := none })).dropTurn c).withdrawClaim
        c).onLink (Link.removeCommands c)) :=
      (p.setOrder_reacts c _).trans ((Part.dropTurn_reacts _ c).trans ((Part.withdrawClaim_reacts _ c).trans
        (Part.onLink_reacts _ _)))
    have hsource := hended.trans (Part.Reacts.ite
      ((((((p.setOrder c (some { o with state := .ended, pending := none })).dropTurn c).withdrawClaim c).onLink
        (Link.removeCommands c)).hook c).state == .empty) (Part.clearSource_reacts _ c) (.refl _))
    have hdest := hsource.trans (Part.Reacts.ite (o.setDest && !complete) (Part.clearDest_reacts _ c) (.refl _))
    cases v with
    | none => exact hdest
    | some v => exact hdest.trans (Part.verdict_reacts _ _ _ _ _ _ _)

/-! ## Stops -/

theorem CauseSet.has_put (s : CauseSet) (x y : StopCause) (h : s.has y = true) : (s.put x true).has y = true := by
  by_cases hxy : x = y
  · rw [hxy, CauseSet.put_has]
  · cases x <;> cases y <;> simp_all [CauseSet.put, CauseSet.has]

theorem Part.setLatch_reacts {l : Latch} (h : ∀ x, (p.latch c).causes.has x = true → l.causes.has x = true) :
    p.Reacts (p.setLatch c l) := by
  refine ⟨rfl, rfl, rfl, rfl, rfl, rfl, rfl, fun _ => rfl, fun _ => id, fun _ => rfl, fun d x hx => ?_, fun _ _ => id⟩
  by_cases hd : d = c
  · subst hd
    rw [Part.setLatch_latch]
    exact h x hx
  · rw [Part.setLatch_latch_ne _ _ _ _ hd]
    exact hx

theorem Part.commandStop_reacts (on : Bool) : p.Reacts (p.commandStop c on) :=
  .of_same rfl rfl rfl rfl rfl (.of_eq rfl) (fun _ => rfl) rfl

theorem Part.requestStop_reacts (cause : StopCause) (bay : Option (Fin 6)) : p.Reacts (p.requestStop c cause bay) := by
  cases h : (p.entry c).configured with
  | false => rw [p.requestStop_of_unconfigured c cause bay h]; exact .refl p
  | true =>
    cases hc : (p.latch c).causes.has cause with
    | true =>
      rw [p.requestStop_of_held c cause bay h hc]
      exact p.setLatch_reacts c fun x hx => by rw [Latch.addBay_causes]; exact hx
    | false =>
      rw [p.requestStop_of_new c cause bay h hc]
      have hstopped : p.Reacts (p.stopped c cause bay) :=
        (p.setLatch_reacts c fun x hx => by rw [Latch.addBay_causes]; exact CauseSet.has_put _ _ _ hx).trans
          ((Part.commandStop_reacts _ c true).trans ((Part.onLink_reacts _ _).trans (Part.onLink_reacts _ _)))
      exact hstopped.trans ((Part.endOrder_reacts _ c _ _).trans (Part.notify_reacts _ _ _ _ _ _))

end

/-! ## The derivation of a bay's state -/

section
variable (p : Part) (b : Fin 6)

/-- A bay whose record changes in its derived state, its timers and DRIVER only, DRIVER never leaving. -/
theorem Part.setBay_reacts {r : BayRecord} (hf : r.facts = (p.bay b).facts)
    (hd : (p.bay b).causes.driver = true → r.causes.driver = true) : p.Reacts (p.setBay b r) := by
  refine ⟨rfl, rfl, rfl, rfl, rfl, rfl, rfl, fun d => ?_, fun d h => ?_, fun _ => rfl, fun _ _ => id, fun _ _ => id⟩
  · by_cases hdb : d = b
    · rw [hdb, Part.setBay_bay, hf]
    · rw [Part.setBay_bay_ne _ _ _ _ hdb]
  · by_cases hdb : d = b
    · subst hdb
      rw [Part.setBay_bay]
      exact hd h
    · rw [Part.setBay_bay_ne _ _ _ _ hdb]
      exact h

theorem Part.commandLamps_reacts (g r : Bool) : p.Reacts (p.commandLamps b g r) :=
  .of_same rfl rfl rfl rfl rfl (.of_eq rfl) (fun _ => rfl) rfl

theorem Part.deriveOnce_reacts : p.Reacts (p.deriveOnce b) := by
  by_cases h : (p.bay b).derived = (p.bay b).state
  · rw [Part.deriveOnce_of_same h]
    exact .refl p
  · rw [Part.deriveOnce_of_change h]
    exact (p.setBay_reacts b (r := { p.bay b with
        state := (p.bay b).derived
        flashAt := if (p.bay b).derived = .paused then some (after p.now (p.bayEntry b).flashOn) else none }) rfl id).trans
      ((Part.commandLamps_reacts _ b _ _).trans (Part.notify_reacts _ _ _ _ _ _))

theorem Part.withZones_reacts {zs : Vector Zone 32}
    (h : ∀ (k : Fin 32) (d : Fin 6), p.arbiter.zones[k].bayHold[d] = true → zs[k].bayHold[d] = true) : p.Reacts (p.withZones zs) :=
  ⟨rfl, rfl, rfl, rfl, rfl, rfl, rfl, fun _ => rfl, fun _ => id, fun _ => rfl, fun _ _ => id, h⟩

theorem BaySet.put_true_of_mem (s : BaySet) (b d : Fin 6) (h : s[d] = true) : (BaySet.put s b true)[d] = true := by
  unfold BaySet.put
  simp only [Fin.getElem_fin, Vector.getElem_set] at h ⊢
  split
  · rfl
  · exact h

theorem Part.setBayHold_reacts (m : ZoneMask) : p.Reacts (p.setBayHold b m) := by
  rw [Part.setBayHold_eq]
  refine p.withZones_reacts fun k d h => ?_
  simp only [Fin.getElem_fin, Vector.getElem_ofFn] at h ⊢
  split
  · split
    · exact BaySet.put_true_of_mem _ b d h
    · exact h
  · exact h

theorem Part.driverOut_reacts : p.Reacts (p.driverOut b) := by
  have hset : p.Reacts (p.setBay b { p.bay b with rearmAt := none, causes := { (p.bay b).causes with driver := true } }) :=
    p.setBay_reacts b rfl fun _ => rfl
  exact hset.trans ((Part.setBayHold_reacts _ b _).trans
    (Part.reacts_foldl (fun q c => Part.Reacts.ite _ (q.requestStop_reacts c _ _) (.refl q)) _ _))

theorem Part.derive_reacts : p.Reacts (p.derive b) := by
  simp only [Part.derive]
  have honce := p.deriveOnce_reacts b
  split
  · exact honce.trans ((Part.driverOut_reacts _ b).trans (Part.deriveOnce_reacts _ b))
  · exact honce

end

/-! ## What follows of the facts of a bay -/

section
variable {p q : Part} (h : p.Reacts q) (b : Fin 6)
include h

theorem Part.Reacts.pollFacts : (q.bay b).pollFacts = (p.bay b).pollFacts := by
  have := congrArg BayRecord.pollFacts (h.facts b)
  exact this

theorem Part.Reacts.last : (q.bay b).last = (p.bay b).last := by
  have := congrArg BayRecord.last (h.facts b)
  exact this

theorem Part.Reacts.noted : (q.bay b).noted = (p.bay b).noted := by
  have := congrArg BayRecord.noted (h.facts b)
  exact this

theorem Part.Reacts.discrepancy : (q.bay b).causes.discrepancy = (p.bay b).causes.discrepancy := by
  have := congrArg (fun r : BayRecord => r.causes.discrepancy) (h.facts b)
  exact this

theorem Part.Reacts.stale : (q.bay b).causes.stale = (p.bay b).causes.stale := by
  have := congrArg (fun r : BayRecord => r.causes.stale) (h.facts b)
  exact this

theorem Part.Reacts.plan : (q.bay b).plan.map Plan.bare = (p.bay b).plan.map Plan.bare := by
  have := congrArg BayRecord.plan (h.facts b)
  exact this

theorem Part.Reacts.bayEntry : q.bayEntry b = p.bayEntry b := by
  rw [Part.bayEntry, Part.bayEntry, h.entries]

theorem Part.Reacts.hookState (c : Fin 4) : (q.hook c).state = (p.hook c).state := by
  have := congrArg Hook.state (h.hooks c)
  exact this

end

end Sys2Proof.Machine
end

section
/-! O33. The driver-safe inputs of the bays. -/

namespace Sys2Proof.Machine

/-- A command that leaves the commands waiting, with the part it leaves. -/
theorem State.exists_next {s : State} {i : Instr} {q : Part} (h : exec i s = .next (s.withPart q)) :
    ∃ t : State, exec i s = .next t ∧ t.pending = s.pending ∧ t.part = q := ⟨_, h, rfl, rfl⟩

theorem Lines.output_driver (l : Lines) (b : Fin 6) : l.output (24 + b.val) = none := by
  have h1 : ¬ 24 + b.val < 4 := by omega
  have h2 : ¬ (8 ≤ 24 + b.val ∧ 24 + b.val < 14) := by omega
  have h3 : ¬ (16 ≤ 24 + b.val ∧ 24 + b.val < 22) := by omega
  simp only [Lines.output, h1, h2, h3, dif_neg, not_false_eq_true]

theorem driverBay_driver (b : Fin 6) : driverBay (24 + b.val) = some b := by
  revert b
  decide

/-- An input level that a driver-safe input takes on is handed to the bay controller (R71, R147, R148). -/
theorem Part.inputAccepted_of_driver {s : State} {b : Fin 6} (hq : s.Quiet) (hdue : s.part.lines.driver[b].due = true) :
    s.part.inputAccepted (24 + b.val) = s.part.acceptDriver b := by
  have hlevel : s.part.levelDue (24 + b.val) = true := by
    simp only [Part.levelDue, Lines.output_driver, driverBay_driver, hdue]
  rw [Part.inputAccepted, whenDue_of_quiet hq, if_pos hlevel]
  simp only [Part.acceptLevel, Lines.output_driver, driverBay_driver, hdue, if_true]

/-- The bay as a driver out of the cab leaves its record: DRIVER in, the wait gone (R147). -/
def Part.pausing (p : Part) (b : Fin 6) : Part :=
  p.setBay b { p.bay b with rearmAt := none, causes := { (p.bay b).causes with driver := true } }

theorem Part.pausing_bay (p : Part) (b : Fin 6) :
    (p.pausing b).bay b = { p.bay b with rearmAt := none, causes := { (p.bay b).causes with driver := true } } :=
  p.setBay_bay b _

theorem Part.sameBays_foldl {α : Type} {f : Part → α → Part} (h : ∀ (p : Part) a, p.SameBays (f p a)) (l : List α) (p : Part) :
    p.SameBays (l.foldl f p) := by
  induction l generalizing p with
  | nil => exact .of_eq rfl
  | cons a as ih => exact (h p a).trans (ih (f p a))

/-- The stops of step 4 of R147 do not change the bays. -/
theorem Part.driverOut_sameBays (p : Part) (b : Fin 6) : (p.pausing b).SameBays (p.driverOut b) := by
  have hhold : (p.pausing b).SameBays ((p.pausing b).setBayHold b ((p.pausing b).bayEntry b).mask) := by
    rw [Part.setBayHold_eq]
    exact .of_eq rfl
  refine hhold.trans (Part.sameBays_foldl (fun q c => ?_) _ _)
  split
  · exact (q.requestStop_onlyCrane c _ _).bays
  · exact .of_eq rfl

theorem Part.setBayHold_zone {p : Part} (b : Fin 6) {m : ZoneMask} {k : Fin 32} (hm : m.getLsbD k.val = true)
    (hd : p.arbiter.zones[k].defined = true) :
    (p.setBayHold b m).arbiter.zones[k] =
      { p.arbiter.zones[k] with bayHold := BaySet.put p.arbiter.zones[k].bayHold b true } := by
  have hzones := congrArg (fun q : Part => q.arbiter.zones[k]) (p.setBayHold_eq b m)
  refine hzones.trans ?_
  simp only [Part.withZones_zones, Fin.getElem_fin, Vector.getElem_ofFn]
  exact (if_pos hm).trans (if_pos hd)

/-- Every defined zone of its mask is held for a bay whose driver left the cab (R43, R147). -/
theorem Part.driverOut_holds {p : Part} {b : Fin 6} {k : Fin 32} (hm : (p.bayEntry b).mask.getLsbD k.val = true)
    (hd : p.arbiter.zones[k].defined = true) : (p.driverOut b).arbiter.zones[k].bayHold[b] = true := by
  have hfold : ((p.pausing b).setBayHold b (p.bayEntry b).mask).Reacts (p.driverOut b) :=
    Part.reacts_foldl (fun q c => Part.Reacts.ite _ (q.requestStop_reacts c _ _) (.refl q)) _ _
  refine hfold.holds k b ?_
  rw [Part.setBayHold_zone (p := p.pausing b) b hm hd]
  exact Vector.getElem_set_self b.isLt

/-- A bay with DRIVER is not working, so that its derivation brings no further pause (R144, R147). -/
theorem Part.derive_of_driver {p : Part} {b : Fin 6} (h : (p.bay b).causes.driver = true) : p.derive b = p.deriveOnce b := by
  have hderived : ((p.bay b).derived).working = false := by
    have hany : (p.bay b).causes.any = true := by simp [PauseSet.any, h]
    unfold BayRecord.derived
    rw [hany]
    split
    · rfl
    · split <;> rfl
  have hstate : ((p.deriveOnce b).bay b).state = (p.bay b).derived := by
    obtain ⟨flashAt, hbay⟩ := p.deriveOnce_bay b
    rw [hbay]
  simp only [Part.derive, hstate, hderived, Bool.and_false, Bool.false_and, Bool.false_eq_true, if_false]

/-- Settles O33. -/
theorem driverInputPausesTheBay : Obligations.DriverInputPausesTheBay := by
  unfold Obligations.DriverInputPausesTheBay
  intro s b hr hq hconf i i' p hrun
  have hexec : ∀ q : Part, i.due = true → p.driverChanged b i.accepted (Level.of i.last) = q →
      exec (.inputLevelAccepted (24 + b.val)) s = .next (s.withPart q) := by
    intro q hdue h
    rw [exec_inputLevelAccepted]
    refine State.act_eq hr ?_
    rw [Part.inputAccepted_of_driver hq hdue]
    exact h
  have hdue : ∀ l : Level, Level.of i.last = l → i.accepted ≠ l → i.due = true := by
    intro l hl hne
    subst hl
    simp [InputFilter.due, hrun, hne]
  have hconf' : (p.bayEntry b).configured = true := hconf
  refine ⟨fun hl ha hd => hexec _ (hdue .active (by rw [hl]; rfl) ha) ?_,
    fun hl ha hd => hexec _ (hdue .active (by rw [hl]; rfl) ha) ?_,
    fun hl ha hst => hexec _ (hdue .inactive (by rw [hl]; rfl) (by rw [ha]; decide)) ?_,
    fun hl ha hne hna => ?_⟩
  · have hdriver : (p.bay b).causes.driver = true := hd
    simp only [Part.driverChanged, hconf', hl, Level.of_eq, if_true, Bool.not_true, Bool.false_eq_true, if_false,
      Part.driverReturned, hdriver]
    rfl
  · have hdriver : (p.bay b).causes.driver = false := hd
    simp only [Part.driverChanged, hconf', hl, Level.of_eq, if_true, Bool.not_true, Bool.false_eq_true, if_false,
      Part.driverReturned, hdriver]
  · have hworking : ((p.bay b).state.working || (p.bay b).state == .paused) = false := by
      rcases hst with h | h
      · rw [show (p.bay b).state = .empty from h]; rfl
      · rw [show (p.bay b).state = .arrived from h]; rfl
    simp only [Part.driverChanged, hconf', hl, ha, Level.of_eq, if_true, Bool.not_true, Bool.false_eq_true, if_false,
      reduceCtorEq, Part.driverLeft, hworking]
    rfl
  · have hworking : ((p.bay b).state.working || (p.bay b).state == .paused) = true := by
      have h1 : (p.bay b).state ≠ .empty := hne
      have h2 : (p.bay b).state ≠ .arrived := hna
      cases hst : (p.bay b).state with
      | empty => exact absurd hst h1
      | arrived => exact absurd hst h2
      | _ => rfl
    have hleft : p.driverChanged b i.accepted (Level.of i.last) = (p.driverOut b).derive b := by
      simp only [Part.driverChanged, hconf', hl, ha, Level.of_eq, if_true, Bool.not_true, Bool.false_eq_true, if_false,
        reduceCtorEq, Part.driverLeft, hworking]
    have hstep := hexec _ (hdue .inactive (by rw [hl]; rfl) (by rw [ha]; decide)) hleft
    have hsame := p.driverOut_sameBays b
    have hdriver : ((p.driverOut b).bay b).causes = { (s.part.bay b).causes with driver := true } := by
      rw [hsame.causes, Part.pausing_bay]
      rfl
    have hrearm : ((p.driverOut b).bay b).rearmAt = none := by rw [hsame.rearmAt, Part.pausing_bay]
    have hderive : (p.driverOut b).derive b = (p.driverOut b).deriveOnce b := Part.derive_of_driver (by rw [hdriver])
    have hreacts : p.Reacts ((p.driverOut b).derive b) := (p.driverOut_reacts b).trans (Part.derive_reacts _ b)
    have hkeeps : s.part.Keeps Scope.wide p := s.part.keeps_lines _ (fun _ => rfl) (.inl trivial)
    have hrecords : ((p.driverOut b).derive b).tracker.records = s.part.tracker.records := by rw [hreacts.tracker]
    have hpolls : (((p.driverOut b).derive b).bay b).pollFacts = (s.part.bay b).pollFacts := hreacts.pollFacts b
    obtain ⟨flashAt, hbay⟩ := (p.driverOut b).deriveOnce_bay b
    have hcauses : (((p.driverOut b).derive b).bay b).causes = { (s.part.bay b).causes with driver := true } := by
      rw [hderive, hbay]
      exact hdriver
    have hwait : (((p.driverOut b).derive b).bay b).rearmAt = none := by
      rw [hderive, hbay]
      exact hrearm
    obtain ⟨t, hnext, hpending, hpart⟩ := State.exists_next hstep
    refine ⟨t, hnext, hpending, ?_⟩
    rw [hpart]
    refine ⟨hcauses, hwait, Part.derive_state _ b, hpolls, fun k hm hd => ?_, hrecords, ?_⟩
    · exact (Part.derive_reacts _ b).holds k b (Part.driverOut_holds hm hd)
    · exact (hkeeps.trans ((p.driverOut_keeps b).trans (Part.derive_keeps _ b))).sameTables

end Sys2Proof.Machine
end

section
/-! O40. The set-down of a coil. -/

namespace Sys2Proof.Machine

/-- A hook that has let its coil go, before the coil is settled (R91). -/
def Part.released (p : Part) (c : Fin 4) : Part := p.setHook c { p.hook c with state := .empty, quiet := 0, coil := none }

theorem Part.released_hook (p : Part) (c : Fin 4) :
    (p.released c).hook c = { p.hook c with state := .empty, quiet := 0, coil := none } := p.setHook_hook c _

theorem Part.setDown_of_coil {p : Part} {c : Fin 4} {coil : Coil} (h : (p.hook c).coil = some coil) :
    p.setDown c = ((p.released c).settleCoil c coil).activateStaged c := by
  rw [Part.setDown, h]
  rfl

/-- A hook whose staged table may just have become the active one (R76). -/
theorem Hook.activate_form (h : Hook) :
    ∃ active staged tare suspect,
      h.activate = { h with active := active, staged := staged, tare := tare, suspect := suspect } := by
  unfold Hook.activate
  split
  · exact ⟨_, _, _, _, rfl⟩
  · exact ⟨_, _, _, _, rfl⟩

theorem Part.activateStaged_hook (p : Part) (c : Fin 4) : (p.activateStaged c).hook c = (p.hook c).activate := p.setHook_hook c _

theorem Part.activateStaged_slots (p : Part) (c : Fin 4) : (p.activateStaged c).slots = p.slots := rfl

theorem Part.activateStaged_bay (p : Part) (c : Fin 4) (b : Fin 6) : (p.activateStaged c).bay b = p.bay b := rfl

/-- What the activation of a staged table leaves of a hook. -/
theorem Part.activateStaged_kept (p : Part) (c : Fin 4) :
    ((p.activateStaged c).hook c).state = (p.hook c).state ∧ ((p.activateStaged c).hook c).coil = (p.hook c).coil
      ∧ ((p.activateStaged c).hook c).dest = (p.hook c).dest ∧ ((p.activateStaged c).hook c).lost = (p.hook c).lost
      ∧ ((p.activateStaged c).hook c).lostCount = (p.hook c).lostCount
      ∧ ((p.activateStaged c).hook c).acc = (p.hook c).acc ∧ ((p.activateStaged c).hook c).loadSeq = (p.hook c).loadSeq := by
  obtain ⟨a, s, t, u, h⟩ := (p.hook c).activate_form
  rw [Part.activateStaged_hook, h]
  exact ⟨rfl, rfl, rfl, rfl, rfl, rfl, rfl⟩

theorem Part.notify_hook (p : Part) (k : NoticeKind) (a v1 v2 v3 : Nat) (c : Fin 4) :
    (p.notify k a v1 v2 v3).hook c = p.hook c := by
  rw [Part.hook, Part.notify_hooks, Part.hook]

theorem Part.notify_bay (p : Part) (k : NoticeKind) (a v1 v2 v3 : Nat) (b : Fin 6) :
    (p.notify k a v1 v2 v3).bay b = p.bay b := by
  rw [Part.bay, Part.notify_bays, Part.bay]

theorem Part.loseCoil_hook (p : Part) (c : Fin 4) (coil : Coil) (why : Reason) :
    (p.loseCoil c coil why).hook c = { p.hook c with lost := some coil, lostCount := bump (p.hook c).lostCount } := by
  simp only [Part.loseCoil, Part.notify_hook]
  exact p.setHook_hook c _

theorem Part.loseCoil_slots (p : Part) (c : Fin 4) (coil : Coil) (why : Reason) : (p.loseCoil c coil why).slots = p.slots := by
  simp [Part.loseCoil]

theorem apart_le_iff {a b n : Nat} : apart a b ≤ n ↔ a ≤ b + n ∧ b ≤ a + n := by
  unfold apart
  omega

theorem Part.withinTolerance_iff (p : Part) (c : Fin 4) (d : Destination) :
    p.withinTolerance c d = true ↔
      (p.craneX c ≤ d.x + (p.entry c).tolerance ∧ d.x ≤ p.craneX c + (p.entry c).tolerance)
        ∧ p.craneY c ≤ d.y + (p.entry c).tolerance ∧ d.y ≤ p.craneY c + (p.entry c).tolerance := by
  rw [Part.withinTolerance, Bool.and_eq_true, decide_eq_true_iff, decide_eq_true_iff, apart_le_iff, apart_le_iff]

/-- A coil set down within tolerance of a destination that its owner still holds (R92). -/
theorem Part.settleCoil_of_held {p : Part} {c : Fin 4} {coil : Coil} {d : Destination} (hd : (p.hook c).dest = some d)
    (hheld : p.holdsIncoming d.place c = true) (ht : p.withinTolerance c d = true) :
    p.settleCoil c coil = p.deliver c d.place coil := by
  simp only [Part.settleCoil, hd, hheld, ht, Bool.not_true, Bool.false_eq_true, if_false, if_true]

theorem Part.settleCoil_of_none {p : Part} {c : Fin 4} {coil : Coil} (hd : (p.hook c).dest = none) :
    p.settleCoil c coil = p.loseCoil c coil .noDestination := by
  simp only [Part.settleCoil, hd]

/-- A plan whose placement takes a coil (R151, R153). -/
theorem Plan.commit_eq {pl : Plan} {k : Nat} {q : Placement} (h : pl.placements[k]? = some q) (coil : Coil) (scale : Bool) :
    pl.commit k coil scale =
      { pl with
        placements := pl.placements.set k { q with state := .placed coil }
        front := pl.front + ((coil.weight : Int) - nearestUp (coil.weight * q.offset) pl.wheelbase)
        rear := pl.rear + nearestUp (coil.weight * q.offset) pl.wheelbase
        placedCount := pl.placedCount + 1
        scalePending := pl.scalePending || scale } := by
  have hq : pl.placement k = some q := h
  simp only [Plan.commit, Plan.setPlacement, hq, Option.elim_some, Plan.axle]

/-- A set-down committed at a bay whose driver is safe (R153). -/
theorem Part.commitPlacement_of_safe {p : Part} {b : Fin 6} {k : Nat} {coil : Coil} (h : p.lines.driver[b].accepted = .active) :
    p.commitPlacement b k coil = (p.onPlan b fun pl => pl.commit k coil (p.bayEntry b).scale).deriveOnce b :=
  Part.derive_of_safe _ b h

/-- Settles O40. -/
theorem setDownReachesTheSlot : Obligations.SetDownReachesTheSlot := by
  unfold Obligations.SetDownReachesTheSlot
  intro p c coil hcoil
  have hrel := p.released_hook c
  rw [Part.setDown_of_coil hcoil]
  refine ⟨fun i g r w x y hdest hslot hx1 hx2 hy1 hy2 => ?_, fun hdest => ?_, fun b k pl q x y hdest hplan hq hst hx1 hx2 hy1 hy2 hsafe => ?_⟩
  · have hd : ((p.released c).hook c).dest = some ⟨.slot i, x, y⟩ := by rw [hrel]; exact hdest
    have hheld : (p.released c).holdsIncoming (.slot i) c = true := by
      have hslot' : (p.released c).slots.slot i = some ⟨g, .incoming r c w⟩ := hslot
      simp only [Part.holdsIncoming, SlotMap.incomingFor, hslot', beq_self_eq_true]
    have ht : (p.released c).withinTolerance c ⟨.slot i, x, y⟩ = true :=
      ((p.released c).withinTolerance_iff c _).2 ⟨⟨hx1, hx2⟩, hy1, hy2⟩
    rw [Part.settleCoil_of_held hd hheld ht]
    have hslots : ((p.released c).deliver c (.slot i) coil).slots = p.slots.setContents i (.occupied coil p.mgmt.clock) := by
      simp only [Part.deliver, Part.notify_slots]
      rfl
    have hhook : ((p.released c).deliver c (.slot i) coil).hook c =
        { p.hook c with state := .empty, quiet := 0, coil := none, dest := none } := by
      simp only [Part.deliver, Part.notify_hook]
      exact (Part.setHook_hook (p.released c) c _).trans (by rw [hrel])
    obtain ⟨hstate, hcoil', hdest', _, hlost, _⟩ := Part.activateStaged_kept ((p.released c).deliver c (.slot i) coil) c
    rw [hstate, hcoil', hdest', hlost, hhook, Part.activateStaged_slots, hslots]
    refine ⟨?_, fun j hj => ?_, rfl, rfl, rfl, rfl⟩
    · rw [SlotMap.slot_setContents, if_pos rfl, hslot]
      rfl
    · rw [SlotMap.slot_setContents, if_neg hj]
  · have hd : ((p.released c).hook c).dest = none := by rw [hrel]; exact hdest
    rw [Part.settleCoil_of_none hd]
    obtain ⟨hstate, hcoil', _, hlost, hcount, _⟩ := Part.activateStaged_kept ((p.released c).loseCoil c coil .noDestination) c
    rw [hstate, hcoil', hlost, hcount, Part.activateStaged_slots, Part.loseCoil_hook, Part.loseCoil_slots, hrel]
    exact ⟨rfl, rfl, rfl, rfl, rfl⟩
  · have hd : ((p.released c).hook c).dest = some ⟨.bayPos b k, x, y⟩ := by rw [hrel]; exact hdest
    have hheld : (p.released c).holdsIncoming (.bayPos b k) c = true := by
      have hplan' : ((p.released c).bay b).plan = some pl := hplan
      have hq' : pl.placement k = some q := hq
      simp only [Part.holdsIncoming, Part.placementIncoming, hplan', Option.bind_some, hq', Option.any_some, hst, beq_self_eq_true]
    have ht : (p.released c).withinTolerance c ⟨.bayPos b k, x, y⟩ = true :=
      ((p.released c).withinTolerance_iff c _).2 ⟨⟨hx1, hx2⟩, hy1, hy2⟩
    rw [Part.settleCoil_of_held hd hheld ht]
    let unbound := (p.released c).setHook c { (p.released c).hook c with dest := none }
    let committed := unbound.onPlan b fun pl => pl.commit k coil (p.bayEntry b).scale
    have hcommit : unbound.commitPlacement b k coil = committed.deriveOnce b := Part.commitPlacement_of_safe hsafe
    have honly := committed.deriveOnce_derivesOnly b
    obtain ⟨flashAt, hbay⟩ := committed.deriveOnce_bay b
    have hbayPlan : (committed.bay b).plan = some (pl.commit k coil (p.bayEntry b).scale) := by
      rw [show committed.bay b = _ from unbound.setBay_bay b _, show (unbound.bay b).plan = some pl from hplan]
      rfl
    have hdeliver : ∀ d, ((p.released c).deliver c (.bayPos b k) coil).bay d = (committed.deriveOnce b).bay d := fun d => by
      simp only [Part.deliver, Part.notify_bay]
      exact congrArg (fun q : Part => q.bay d) hcommit
    have hhook : ((p.released c).deliver c (.bayPos b k) coil).hook c =
        { p.hook c with state := .empty, quiet := 0, coil := none, dest := none } := by
      simp only [Part.deliver, Part.notify_hook]
      refine (congrArg (fun q : Part => q.hook c) hcommit).trans ((congrArg (fun hs => hs[c]) honly.hooks).trans ?_)
      exact (Part.setHook_hook (p.released c) c _).trans (by rw [hrel])
    have hslots : ((p.released c).deliver c (.bayPos b k) coil).slots = p.slots := by
      simp only [Part.deliver, Part.notify_slots]
      exact (congrArg Part.slots hcommit).trans honly.slots
    obtain ⟨hstate, hcoil', hdest', _, hlost, _⟩ := Part.activateStaged_kept ((p.released c).deliver c (.bayPos b k) coil) c
    rw [hstate, hcoil', hdest', hlost, hhook, Part.activateStaged_slots, hslots, Part.activateStaged_bay, hdeliver]
    refine ⟨?_, Part.deriveOnce_state _ b, rfl, rfl, rfl, rfl, rfl⟩
    rw [hbay, show (committed.bay b).plan = _ from hbayPlan, Plan.commit_eq hq]
    rfl

end Sys2Proof.Machine
end

section
/-! O15 and O16. The telegrams that only count, and the window of a LOAD. -/

namespace Sys2Proof.Machine

/-! ## O15 -/

theorem newer_eq_false {a b : Byte} (h : (a - b).toNat = 0 ∨ 127 < (a - b).toNat) : newer a b = false := by
  unfold newer
  rcases h with h | h
  · rw [h]; rfl
  · rw [decide_eq_false (Nat.not_le.2 h), Bool.and_false]

theorem exec_position_of_telegram {s : State} {c : Fin 4} {f : Frame} (ht : s.TelegramFrom .position c f) (hq : s.Quiet)
    {q : Part} (h : s.part.dropCrane.positionTelegram c f.seq f.payload = q) :
    exec .position s = .next (s.withPart (q.forwarded f)) := by
  rw [exec_position]
  refine State.act_eq ht.1 ?_
  rw [positionFrame_of_telegram ht hq, h]

theorem exec_load_of_telegram {s : State} {c : Fin 4} {f : Frame} (ht : s.TelegramFrom .load c f) (hq : s.Quiet)
    {q : Part} (h : s.part.dropCrane.loadTelegram c f.seq f.payload = q) :
    exec .load s = .next (s.withPart (q.forwarded f)) := by
  rw [exec_load]
  refine State.act_eq ht.1 ?_
  rw [loadFrame_of_telegram ht hq, h]

theorem exec_bayReport_of_report {s : State} {b : Fin 6} {f : Frame} (ht : s.ReportFrom b f) (hq : s.Quiet)
    {q : Part} (h : s.part.dropCrane.bayReport b f.payload = q) : exec .bayReport s = .next (s.withPart q) := by
  rw [exec_bayReport]
  refine State.act_eq ht.1 ?_
  rw [bayReportFrame_of_report ht hq, h]

section
variable {p : Part} {c : Fin 4} {b : Fin 6} {seq : Byte} {d : List Byte}

theorem Part.positionTelegram_of_malformed (hc : (p.entry c).configured = true) (hr : readPosition d = none) :
    p.positionTelegram c seq d = p.setRecord c { p.record c with malformed := bump (p.record c).malformed } := by
  simp only [Part.positionTelegram, hc, hr, Bool.not_true, Bool.false_eq_true, if_false]

theorem Part.positionTelegram_of_late {raw : RawPosition} (hc : (p.entry c).configured = true) (hr : readPosition d = some raw)
    (hl : (p.record c).accepts seq = false) :
    p.positionTelegram c seq d = p.setRecord c { p.record c with late := bump (p.record c).late } := by
  simp only [Part.positionTelegram, hc, hr, hl, Bool.not_true, Bool.false_eq_true, if_false]

theorem Part.loadTelegram_of_malformed (hc : (p.entry c).configured = true) (hr : readLoad d = none) :
    p.loadTelegram c seq d = p.setHook c { p.hook c with malformed := bump (p.hook c).malformed } := by
  simp only [Part.loadTelegram, hc, hr, Bool.not_true, Bool.false_eq_true, if_false]

theorem Part.loadTelegram_of_late {samples : List Int} (hc : (p.entry c).configured = true) (hr : readLoad d = some samples)
    (hl : p.acceptsLoad c seq = false) :
    p.loadTelegram c seq d = p.setHook c { p.hook c with late := bump (p.hook c).late } := by
  simp only [Part.loadTelegram, hc, hr, hl, Bool.not_true, Bool.false_eq_true, if_false]

theorem Part.loadTelegram_of_accepted {samples : List Int} (hc : (p.entry c).configured = true) (hr : readLoad d = some samples)
    (ha : p.acceptsLoad c seq = true) :
    p.loadTelegram c seq d =
      samples.foldl (fun p v => p.takeSample c v) (p.setHook c { p.hook c with loadSeq := some seq }) := by
  simp only [Part.loadTelegram, hc, hr, ha, Bool.not_true, Bool.false_eq_true, if_false, if_true]

theorem Part.bayReport_of_late {rep : Report} (hc : (p.bayEntry b).configured = true) (hr : readBayReport d p.now = some rep)
    (hs : (p.bays.scan.any fun sc => sc.bay == b && !sc.taken) = false) :
    p.bayReport b d = p.setBay b { p.bay b with late := bump (p.bay b).late } := by
  simp only [Part.bayReport, hc, hr, Bool.not_true, Bool.false_eq_true, if_false]
  cases h : p.bays.scan with
  | none => rfl
  | some sc =>
    refine if_neg fun ⟨hb, ht⟩ => ?_
    rw [h, Option.any_some, hb, ht, beq_self_eq_true] at hs
    exact absurd hs (by decide)

end

/-- Settles O15. -/
theorem lateAndMalformedTelegramsOnlyCount : Obligations.LateAndMalformedTelegramsOnlyCount := by
  unfold Obligations.LateAndMalformedTelegramsOnlyCount
  intro s c b f hq
  refine ⟨fun hc => ⟨fun ht hr => exec_position_of_telegram ht hq (Part.positionTelegram_of_malformed hc hr),
      fun raw old ht hr htr hl hlate => exec_position_of_telegram ht hq (Part.positionTelegram_of_late hc hr ?_),
      fun ht hr => exec_load_of_telegram ht hq (Part.loadTelegram_of_malformed hc hr),
      fun samples old ht hr htr hl hlate => exec_load_of_telegram ht hq (Part.loadTelegram_of_late hc hr ?_)⟩,
    fun hc => ⟨fun ht => exec_position_of_telegram ht hq ?_, fun ht => exec_load_of_telegram ht hq ?_⟩,
    fun ht hc => ⟨fun hr => exec_bayReport_of_report ht hq ?_,
      fun rep hr hs => exec_bayReport_of_report ht hq (Part.bayReport_of_late hc hr hs)⟩,
    fun ht hc => exec_bayReport_of_report ht hq ?_⟩
  · have htr' : (s.part.dropCrane.record c).tracking = .tracked := htr
    have hl' : (s.part.dropCrane.record c).last = some old := hl
    simp only [CraneRecord.accepts, htr', hl']
    exact newer_eq_false hlate
  · have htr' : (s.part.dropCrane.record c).tracking = .tracked := htr
    have hl' : (s.part.dropCrane.hook c).loadSeq = some old := hl
    simp only [Part.acceptsLoad, htr', hl', Option.all_some, newer_eq_false hlate]
    rfl
  · have hc' : (s.part.dropCrane.entry c).configured = false := hc
    simp only [Part.positionTelegram, hc', Bool.not_false, if_true]
  · have hc' : (s.part.dropCrane.entry c).configured = false := hc
    simp only [Part.loadTelegram, hc', Bool.not_false, if_true]
  · have hc' : (s.part.dropCrane.bayEntry b).configured = true := hc
    have hr' : readBayReport f.payload s.part.dropCrane.now = none := hr
    simp only [Part.bayReport, hc', hr', Bool.not_true, Bool.false_eq_true, if_false]
    rfl
  · have hc' : (s.part.dropCrane.bayEntry b).configured = false := hc
    simp only [Part.bayReport, hc', Bool.not_false, if_true]

/-! ## The accumulator -/

theorem Accumulator.Holds.number {a : Accumulator} {l : List Int} (h : a.Holds l) : a.number = l.length := by
  unfold Accumulator.Holds at h
  split at h
  next hl => rw [h, hl]; rfl
  next => exact h.1

theorem Accumulator.holds_nil : Accumulator.reset.Holds [] := by
  unfold Accumulator.Holds
  rw [if_pos rfl]

theorem Accumulator.Holds.add {a : Accumulator} {l : List Int} (h : a.Holds l) (v : Int) : (a.add v).Holds (l ++ [v]) := by
  have hn := h.number
  unfold Accumulator.Holds at h ⊢
  rw [if_neg (by simp)]
  by_cases hl : l = []
  · have hz : a.number = 0 := by rw [hn, hl]; rfl
    subst hl
    simp [Accumulator.add, hz]
  · rw [if_neg hl] at h
    obtain ⟨_, hsum, hlo, hhi, hall⟩ := h
    have hz : a.number ≠ 0 := by rw [hn]; simpa using hl
    simp only [Accumulator.add, hz, if_false]
    refine ⟨by simp [hn], by simp [hsum], ?_, ?_, fun w hw => ?_⟩
    · rcases min_choice a.smallest v with hm | hm
      · rw [hm]; exact List.mem_append_left _ hlo
      · rw [hm]; simp
    · rcases max_choice a.largest v with hm | hm
      · rw [hm]; exact List.mem_append_left _ hhi
      · rw [hm]; simp
    · rcases List.mem_append.1 hw with hw | hw
      · obtain ⟨h1, h2⟩ := hall w hw
        exact ⟨(min_le_left _ _).trans h1, h2.trans (le_max_left _ _)⟩
      · rw [List.mem_singleton.1 hw]
        exact ⟨min_le_right _ _, le_max_right _ _⟩

theorem Accumulator.add_number (a : Accumulator) (v : Int) : (a.add v).number = a.number + 1 := by
  unfold Accumulator.add
  split
  next h => rw [h]
  next => rfl

/-! ## Samples into the window (R79) -/

/-- A crane's window with another accumulator. -/
def Part.withAcc (p : Part) (c : Fin 4) (a : Accumulator) : Part := p.setHook c { p.hook c with acc := a }

theorem Part.withAcc_hook (p : Part) (c : Fin 4) (a : Accumulator) : (p.withAcc c a).hook c = { p.hook c with acc := a } :=
  p.setHook_hook c _

theorem Part.withAcc_withAcc (p : Part) (c : Fin 4) (a b : Accumulator) : (p.withAcc c a).withAcc c b = p.withAcc c b := by
  have h := p.setHook_setHook c { p.hook c with acc := a } { p.hook c with acc := b }
  rw [Part.withAcc, Part.withAcc_hook]
  exact h

theorem Part.withAcc_self (p : Part) (c : Fin 4) : p.withAcc c (p.hook c).acc = p :=
  congrArg (fun hs => { p with hooks := hs }) (Vector.set_getElem_self c.isLt)

theorem Part.takeSample_eq (p : Part) (c : Fin 4) (v : Int) :
    p.takeSample c v =
      if p.params.window ≤ (p.hook c).acc.number + 1 then (p.withAcc c ((p.hook c).acc.add v)).endWindow c
      else p.withAcc c ((p.hook c).acc.add v) := by
  rw [← Accumulator.add_number _ v]
  rfl

/-- Samples that leave the window below its length only join it. -/
theorem Part.takeSamples_below {c : Fin 4} {samples : List Int} {p : Part} {held : List Int} (h : (p.hook c).acc.Holds held)
    (hlt : held.length + samples.length < p.params.window) :
    ∃ a : Accumulator, a.Holds (held ++ samples) ∧ samples.foldl (fun p v => p.takeSample c v) p = p.withAcc c a := by
  induction samples generalizing p held with
  | nil => exact ⟨(p.hook c).acc, by simpa using h, (p.withAcc_self c).symm⟩
  | cons v vs ih =>
    have hn := h.number
    simp only [List.length_cons] at hlt
    have hstep : p.takeSample c v = p.withAcc c ((p.hook c).acc.add v) := by
      rw [Part.takeSample_eq, if_neg (by omega)]
    have hheld : ((p.withAcc c ((p.hook c).acc.add v)).hook c).acc.Holds (held ++ [v]) := by
      rw [Part.withAcc_hook]
      exact h.add v
    obtain ⟨a, ha, hfold⟩ := ih (p := p.withAcc c ((p.hook c).acc.add v)) hheld (by
      have hwindow : (p.withAcc c ((p.hook c).acc.add v)).params.window = p.params.window := rfl
      rw [hwindow, List.length_append, List.length_singleton]
      omega)
    refine ⟨a, by simpa using ha, ?_⟩
    rw [List.foldl_cons, hstep, hfold, Part.withAcc_withAcc]

/-- Samples of which the last fills the window end it once. -/
theorem Part.takeSamples_full {c : Fin 4} {samples : List Int} {p : Part} {held : List Int} (h : (p.hook c).acc.Holds held)
    (hlt : held.length < p.params.window) (heq : held.length + samples.length = p.params.window) :
    ∃ a : Accumulator, a.Holds (held ++ samples)
      ∧ samples.foldl (fun p v => p.takeSample c v) p = (p.withAcc c a).endWindow c := by
  rcases List.eq_nil_or_concat samples with rfl | ⟨init, v, rfl⟩
  · simp only [List.length_nil] at heq
    omega
  · simp only [List.concat_eq_append, List.length_append, List.length_singleton] at heq ⊢
    obtain ⟨a, ha, hfold⟩ := Part.takeSamples_below (samples := init) h (by omega)
    have hn := ha.number
    rw [List.length_append] at hn
    refine ⟨a.add v, by simpa using ha.add v, ?_⟩
    rw [List.foldl_append, hfold, List.foldl_cons, List.foldl_nil, Part.takeSample_eq, Part.withAcc_hook]
    have hwindow : (p.withAcc c a).params.window ≤ a.number + 1 := by
      have hw : (p.withAcc c a).params.window = p.params.window := rfl
      omega
    rw [if_pos hwindow, Part.withAcc_withAcc]

/-! ## What a window's end leaves of the window itself -/

/-- The window of a crane and the sequence of its last LOAD stand. -/
structure Part.KeepsWindow (c : Fin 4) (p q : Part) : Prop where
  acc : (q.hook c).acc = (p.hook c).acc
  loadSeq : (q.hook c).loadSeq = (p.hook c).loadSeq

section
variable {c : Fin 4} {p q r : Part}

theorem Part.KeepsWindow.refl (p : Part) : p.KeepsWindow c p := ⟨rfl, rfl⟩

theorem Part.KeepsWindow.trans (h : p.KeepsWindow c q) (k : q.KeepsWindow c r) : p.KeepsWindow c r :=
  ⟨k.acc.trans h.acc, k.loadSeq.trans h.loadSeq⟩

theorem Part.KeepsWindow.of_hook {h : Hook} (hh : q.hook c = h) (ha : h.acc = (p.hook c).acc)
    (hl : h.loadSeq = (p.hook c).loadSeq) : p.KeepsWindow c q := by
  rw [← hh] at ha hl
  exact ⟨ha, hl⟩

theorem Part.Reacts.keepsWindow (h : p.Reacts q) : p.KeepsWindow c q := by
  have ha := congrArg Hook.acc (h.hooks c)
  have hl := congrArg Hook.loadSeq (h.hooks c)
  exact ⟨ha, hl⟩

end

section
variable (p : Part) (c : Fin 4)

theorem Part.setHook_keepsWindow {h : Hook} (ha : h.acc = (p.hook c).acc) (hl : h.loadSeq = (p.hook c).loadSeq) :
    p.KeepsWindow c (p.setHook c h) := .of_hook (p.setHook_hook c h) ha hl

theorem Part.loseCoil_keepsWindow (coil : Coil) (why : Reason) : p.KeepsWindow c (p.loseCoil c coil why) :=
  .of_hook (p.loseCoil_hook c coil why) rfl rfl

theorem Part.activateStaged_keepsWindow : p.KeepsWindow c (p.activateStaged c) := by
  obtain ⟨_, _, _, _, _, ha, hl⟩ := p.activateStaged_kept c
  exact ⟨ha, hl⟩

/-- A plan that takes a coil may change its loads and counts, no hook. -/
theorem Part.commitPlacement_keepsWindow (b : Fin 6) (k : Nat) (coil : Coil) : p.KeepsWindow c (p.commitPlacement b k coil) := by
  have honPlan : p.KeepsWindow c (p.onPlan b fun pl => pl.commit k coil (p.bayEntry b).scale) := ⟨rfl, rfl⟩
  exact honPlan.trans (Part.derive_reacts _ b).keepsWindow

theorem Part.deliver_keepsWindow (d : DestPlace) (coil : Coil) : p.KeepsWindow c (p.deliver c d coil) := by
  have hset : p.KeepsWindow c (p.setHook c { p.hook c with dest := none }) := p.setHook_keepsWindow c rfl rfl
  refine hset.trans (Part.KeepsWindow.trans ?_ (Part.notify_reacts _ _ _ _ _ _).keepsWindow)
  cases d with
  | slot i => exact (Part.onSlots_reacts _ _).keepsWindow
  | bayPos b k => exact Part.commitPlacement_keepsWindow _ c b k coil

theorem Part.settleCoil_keepsWindow (coil : Coil) : p.KeepsWindow c (p.settleCoil c coil) := by
  unfold Part.settleCoil
  split
  · exact p.loseCoil_keepsWindow c coil _
  · split
    · have hset : p.KeepsWindow c (p.setHook c { p.hook c with dest := none }) := p.setHook_keepsWindow c rfl rfl
      exact hset.trans (Part.loseCoil_keepsWindow _ c coil _)
    · split
      · exact p.deliver_keepsWindow c _ coil
      · exact (p.clearDest_reacts c).keepsWindow.trans (Part.loseCoil_keepsWindow _ c coil _)

theorem Part.setDown_keepsWindow : p.KeepsWindow c (p.setDown c) := by
  cases h : (p.hook c).coil with
  | none =>
    simp only [Part.setDown, h]
    exact .refl p
  | some coil =>
    rw [Part.setDown_of_coil h]
    have hset : p.KeepsWindow c (p.released c) := p.setHook_keepsWindow c rfl rfl
    exact hset.trans ((Part.settleCoil_keepsWindow _ c coil).trans
      (Part.activateStaged_keepsWindow _ c))

theorem Part.judgeSetDown_keepsWindow : p.KeepsWindow c (p.judgeSetDown c) := by
  unfold Part.judgeSetDown
  simp only []
  split
  · exact p.setDown_keepsWindow c
  · exact .refl p

theorem Part.judgeLift_keepsWindow (quiet : Bool) (w : WindowWeights) : p.KeepsWindow c (p.judgeLift c quiet w) := by
  unfold Part.judgeLift
  simp only []
  split
  · split
    · exact p.setHook_keepsWindow c rfl rfl
    · exact .refl p
  · split
    · exact p.setHook_keepsWindow c rfl rfl
    · split
      · exact p.setHook_keepsWindow c rfl rfl
      · split
        · exact .of_hook (p.becomeWeighed_hook c _ _) rfl rfl
        · exact p.setHook_keepsWindow c rfl rfl
  · exact .refl p
  · exact .refl p

theorem Part.trackTare_keepsWindow (gross : Nat) : p.KeepsWindow c (p.trackTare c gross) := by
  unfold Part.trackTare
  simp only []
  split
  · have hset : p.KeepsWindow c (p.setHook c { p.hook c with tare := some gross, suspect := true }) :=
      p.setHook_keepsWindow c rfl rfl
    split
    · exact hset
    · exact hset.trans (Part.notify_reacts _ _ _ _ _ _).keepsWindow
  · exact p.setHook_keepsWindow c rfl rfl

end

/-- A window that has ended, its result kept, before it is judged (R79 to R81). -/
def Part.windowed (p : Part) (c : Fin 4) (res : WindowResult) : Part :=
  p.setHook c { p.hook c with lastWindow := some res, acc := Accumulator.reset }

/-- The result of a crane's window that ends now (R79 to R81). -/
def Part.windowResult (p : Part) (c : Fin 4) : WindowResult :=
  (p.hook c).windowResult p.now p.params.window p.params.settleBand (p.entry c).tong

/-- A window end, by its net and the hook state (R80, R82, R85, R91). -/
theorem Part.endWindow_eq (p : Part) (c : Fin 4) :
    p.endWindow c =
      match (p.windowResult c).weights with
      | none => p.windowed c (p.windowResult c)
      | some w =>
        match (p.hook c).state with
        | .empty =>
          if (p.windowResult c).quiet then (p.windowed c (p.windowResult c)).trackTare c w.gross
          else p.windowed c (p.windowResult c)
        | .gripped => (p.windowed c (p.windowResult c)).judgeLift c (p.windowResult c).quiet w
        | .lifting => (p.windowed c (p.windowResult c)).judgeLift c (p.windowResult c).quiet w
        | .weighed => (p.windowed c (p.windowResult c)).judgeSetDown c := rfl

/-- A window that ends is left empty, whatever its judgment (R79). -/
theorem Part.endWindow_window (p : Part) (c : Fin 4) :
    ((p.endWindow c).hook c).acc = Accumulator.reset ∧ ((p.endWindow c).hook c).loadSeq = (p.hook c).loadSeq := by
  have hwindowed : (p.windowed c (p.windowResult c)).hook c =
      { p.hook c with lastWindow := some (p.windowResult c), acc := Accumulator.reset } := p.setHook_hook c _
  have hkeeps : (p.windowed c (p.windowResult c)).KeepsWindow c (p.endWindow c) := by
    rw [Part.endWindow_eq]
    split
    · exact .refl _
    · split
      · split
        · exact Part.trackTare_keepsWindow _ c _
        · exact .refl _
      · exact Part.judgeLift_keepsWindow _ c _ _
      · exact Part.judgeLift_keepsWindow _ c _ _
      · exact Part.judgeSetDown_keepsWindow _ c
  rw [hkeeps.acc, hkeeps.loadSeq, hwindowed]
  exact ⟨rfl, rfl⟩

theorem Part.takeSample_loadSeq (p : Part) (c : Fin 4) (v : Int) :
    ((p.takeSample c v).hook c).loadSeq = (p.hook c).loadSeq := by
  have hacc : ((p.withAcc c ((p.hook c).acc.add v)).hook c).loadSeq = (p.hook c).loadSeq := by rw [Part.withAcc_hook]
  rw [Part.takeSample_eq]
  split
  · exact (Part.endWindow_window _ c).2.trans hacc
  · exact hacc

theorem Part.takeSamples_loadSeq (c : Fin 4) (samples : List Int) (p : Part) :
    ((samples.foldl (fun p v => p.takeSample c v) p).hook c).loadSeq = (p.hook c).loadSeq := by
  induction samples generalizing p with
  | nil => rfl
  | cons v vs ih => exact (ih _).trans (p.takeSample_loadSeq c v)

theorem Part.takeSample_window (p : Part) (c : Fin 4) (v : Int) : (p.takeSample c v).params.window = p.params.window :=
  congrArg Params.window (p.takeSample_keeps (S := Scope.tight) c v).params

/-- A sample brings the window one further, and back to nothing when it fills it. -/
theorem Part.takeSample_acc {p : Part} {c : Fin 4} {v : Int} (h : (p.hook c).acc.number < p.params.window) :
    ((p.takeSample c v).hook c).acc =
      if (p.hook c).acc.number + 1 = p.params.window then Accumulator.reset else (p.hook c).acc.add v := by
  rw [Part.takeSample_eq]
  by_cases hfull : (p.hook c).acc.number + 1 = p.params.window
  · rw [if_pos hfull.ge, if_pos hfull]
    exact (Part.endWindow_window _ c).1
  · rw [if_neg (by omega), if_neg hfull, Part.withAcc_hook]

/-- How many samples a window holds after a run of them (R79). -/
theorem Part.takeSamples_number {c : Fin 4} {samples : List Int} {p : Part} (h : (p.hook c).acc.number < p.params.window) :
    ((samples.foldl (fun p v => p.takeSample c v) p).hook c).acc.number =
      ((p.hook c).acc.number + samples.length) % p.params.window := by
  induction samples generalizing p with
  | nil => exact (Nat.mod_eq_of_lt h).symm
  | cons v vs ih =>
    have hw := p.takeSample_window c v
    have hacc := Part.takeSample_acc (v := v) h
    rw [List.foldl_cons, List.length_cons]
    by_cases hfull : (p.hook c).acc.number + 1 = p.params.window
    · have hzero : ((p.takeSample c v).hook c).acc.number = 0 := by
        rw [hacc, if_pos hfull]
        rfl
      rw [ih (by omega), hzero, hw, show (p.hook c).acc.number + (vs.length + 1) = 0 + vs.length + p.params.window by omega,
        Nat.add_mod_right]
    · have hnext : ((p.takeSample c v).hook c).acc.number = (p.hook c).acc.number + 1 := by
        rw [hacc, if_neg hfull, Accumulator.add_number]
      rw [ih (by omega), hnext, hw]
      congr 1
      omega

/-- A window holds what came after the last sample that filled it (R79). -/
theorem Part.takeSamples_holds {c : Fin 4} {samples : List Int} {p : Part} {held : List Int} (h : (p.hook c).acc.Holds held)
    (hlt : held.length < p.params.window) :
    ((samples.foldl (fun p v => p.takeSample c v) p).hook c).acc.Holds
      ((held ++ samples).drop ((held.length + samples.length) / p.params.window * p.params.window)) := by
  induction samples generalizing p held with
  | nil => simpa [Nat.div_eq_of_lt hlt] using h
  | cons v vs ih =>
    have hn := h.number
    have hw := p.takeSample_window c v
    have hacc := Part.takeSample_acc (v := v) (p := p) (c := c) (by omega)
    rw [List.foldl_cons]
    by_cases hfull : (p.hook c).acc.number + 1 = p.params.window
    · have hempty : ((p.takeSample c v).hook c).acc.Holds [] := by
        rw [hacc, if_pos hfull]
        exact Accumulator.holds_nil
      have hrest := ih hempty (by rw [hw]; exact Nat.lt_of_le_of_lt (Nat.zero_le _) hlt)
      rw [hw, List.nil_append, List.length_nil, Nat.zero_add] at hrest
      have hdiv : (held.length + (v :: vs).length) / p.params.window * p.params.window =
          (held ++ [v]).length + vs.length / p.params.window * p.params.window := by
        have hlen : held.length + (v :: vs).length = vs.length + p.params.window := by
          rw [List.length_cons]
          omega
        rw [hlen, Nat.add_div_right _ (by omega), Nat.succ_mul, List.length_append, List.length_singleton]
        omega
      rw [hdiv, show held ++ v :: vs = (held ++ [v]) ++ vs by simp, ← List.drop_drop, List.drop_left]
      exact hrest
    · have hnext : ((p.takeSample c v).hook c).acc.Holds (held ++ [v]) := by
        rw [hacc, if_neg hfull]
        exact h.add v
      have hrest := ih hnext (by rw [hw, List.length_append, List.length_singleton]; omega)
      rw [hw, List.length_append, List.length_singleton] at hrest
      rw [List.length_cons, show held ++ v :: vs = (held ++ [v]) ++ vs by simp,
        show held.length + (vs.length + 1) = held.length + 1 + vs.length by omega]
      exact hrest

/-! ## The result of a window -/

/-- Division to nearest leaves at most half the divisor, and on a tie goes away from zero. -/
theorem nearest_close (a : Int) {n : Nat} (hn : 0 < n) :
    (2 * (a - n * nearest a n)).natAbs ≤ n
      ∧ ((2 * (a - n * nearest a n)).natAbs = n → a.natAbs ≤ (n * nearest a n).natAbs) := by
  have hq := Nat.div_add_mod (2 * a.natAbs + n) (2 * n)
  have hm := Nat.mod_lt (2 * a.natAbs + n) (show 0 < 2 * n by omega)
  unfold nearest
  simp only []
  generalize (2 * a.natAbs + n) / (2 * n) = q at hq ⊢
  generalize (2 * a.natAbs + n) % (2 * n) = r at hq hm
  have hnq : 2 * n * q = 2 * (n * q) := by ring
  rw [hnq] at hq
  split
  next hneg =>
    rw [show (n : Int) * -(q : Int) = -((n * q : Nat) : Int) by push_cast; ring]
    generalize n * q = m at hq ⊢
    omega
  next hpos =>
    rw [show (n : Int) * (q : Int) = ((n * q : Nat) : Int) by push_cast; ring]
    generalize n * q = m at hq ⊢
    omega

/-- Settles O16. -/
theorem loadEntersTheWindow : Obligations.LoadEntersTheWindow := by
  unfold Obligations.LoadEntersTheWindow
  refine ⟨fun s c f samples ht hq hc hread hseq => ?_, fun p c samples hholds hne hlen => ?_⟩
  · intro a window taken
    have haccepts : s.part.dropCrane.acceptsLoad c f.seq = true := by
      unfold Part.acceptsLoad
      by_cases htr : (s.part.record c).tracking = .tracked
      · have hnewer : ((s.part.dropCrane.hook c).loadSeq.all fun old => newer f.seq old) = true := hseq htr
        rw [hnewer, Bool.or_true]
      · have : ((s.part.dropCrane.record c).tracking != .tracked) = true := bne_iff_ne.2 htr
        rw [this, Bool.true_or]
    have hload := Part.loadTelegram_of_accepted (p := s.part.dropCrane) (seq := f.seq) hc hread haccepts
    have hexec := fun q (h : _ = q) => exec_load_of_telegram ht hq (hload.trans h)
    let start := s.part.dropCrane.setHook c { s.part.hook c with loadSeq := some f.seq }
    have hstart : start.hook c = { s.part.hook c with loadSeq := some f.seq } := s.part.dropCrane.setHook_hook c _
    have hstartAcc : (start.hook c).acc = a := by rw [hstart]
    have htaken : ∀ a' : Accumulator, start.withAcc c a' = taken a' := fun a' => by
      rw [Part.withAcc, hstart]
      exact s.part.dropCrane.setHook_setHook c _ _
    refine ⟨fun held hheld hlt => ?_, fun held hheld hlt heq => ?_, ?_⟩
    · obtain ⟨a', ha', hfold⟩ := Part.takeSamples_below (p := start) (samples := samples) (by rw [hstartAcc]; exact hheld) hlt
      exact ⟨a', ha', hexec _ (hfold.trans (htaken a'))⟩
    · obtain ⟨a', ha', hfold⟩ := Part.takeSamples_full (p := start) (samples := samples) (by rw [hstartAcc]; exact hheld) hlt heq
      exact ⟨a', ha', hexec _ (hfold.trans (congrArg (fun q : Part => q.endWindow c) (htaken a')))⟩
    · have hseqEnd := (Part.takeSamples_loadSeq c samples start).trans (by rw [hstart])
      have hkeeps : s.part.Keeps Scope.tight ((samples.foldl (fun p v => p.takeSample c v) start).forwarded f) :=
        s.part.dropCrane_keeps.trans ((Part.setHook_keeps _ c _).trans
          ((Part.keeps_foldl _ (fun q v => q.takeSample_keeps c v) samples start).trans (Part.forwarded_keeps _ f)))
      obtain ⟨t, hnext, hpending, hpart⟩ := State.exists_next (hexec _ rfl)
      refine ⟨t, hnext, hpending, ?_⟩
      rw [hpart]
      refine ⟨hseqEnd, hkeeps.records_eq, hkeeps.sameTables, fun hw hlt => ⟨?_, fun held hheld => ?_⟩⟩
      · have hnumber := Part.takeSamples_number (c := c) (samples := samples) (p := start) (by rw [hstartAcc]; exact hlt)
        rw [hstartAcc] at hnumber
        exact hnumber
      · have hheld' := hheld.number
        exact Part.takeSamples_holds (c := c) (samples := samples) (p := start) (by rw [hstartAcc]; exact hheld)
          (by rw [← hheld']; exact hlt)
  · intro h tong
    have hne' := hholds
    unfold Accumulator.Holds at hne'
    rw [if_neg hne] at hne'
    obtain ⟨_, hsum, hlo, hhi, hall⟩ := hne'
    have hpos : 0 < p.params.window := by
      rw [← hlen]
      exact List.length_pos_iff.2 hne
    have hclose := nearest_close samples.sum hpos
    rw [← hsum] at hclose
    have hresult : p.windowResult c = ⟨p.mgmt.clock, nearest h.acc.sum p.params.window, h.acc.largest - h.acc.smallest,
      decide (h.acc.largest - h.acc.smallest ≤ p.params.settleBand), h.weights tong (nearest h.acc.sum p.params.window)⟩ := rfl
    have hend := p.endWindow_eq c
    rw [← hsum]
    refine ⟨nearest h.acc.sum p.params.window, h.acc.smallest, h.acc.largest, h.weights tong (nearest h.acc.sum p.params.window),
      hclose.1, hclose.2, hlo, hhi, hall, fun hn => by rw [Hook.weights, hn], fun table htab => ?_, ?_⟩
    · simp only [Hook.weights, htab]
      rfl
    · intro quiet q
      have hq : p.windowed c (p.windowResult c) = q := rfl
      have hqhook : q.hook c = { h with lastWindow := some (p.windowResult c), acc := Accumulator.reset } := p.setHook_hook c _
      rw [hq] at hend
      have hquiet : (p.windowResult c).quiet = quiet := rfl
      rw [hquiet] at hend
      have hweights : (p.windowResult c).weights = h.weights tong (nearest h.acc.sum p.params.window) := rfl
      rw [hweights] at hend
      refine ⟨fun hw => by rw [hend, hw], fun w hw => ?_⟩
      rw [hw] at hend
      simp only [] at hend
      refine ⟨fun hst => ?_, fun hst => ?_, fun hst => ?_⟩
      · rw [hst] at hend
        simp only [] at hend
        intro far tared
        have hsuspect : (q.hook c).suspect = h.suspect := by rw [hqhook]
        have hfar : (q.params.tareLimit < apart w.gross (q.entry c).tong) = far := rfl
        refine ⟨fun hqt => ?_, fun hqt hf => ?_, fun hqt hf hs => ?_, fun hqt hf hs => ?_⟩
        · rw [hend, hqt]
          rfl
        · rw [hend, hqt, if_pos rfl, Part.trackTare]
          exact if_neg hf
        · rw [hend, hqt, if_pos rfl, Part.trackTare]
          exact (if_pos hf).trans (if_pos (hsuspect.trans hs))
        · rw [hend, hqt, if_pos rfl, Part.trackTare]
          exact (if_pos hf).trans (if_neg (by rw [hsuspect, hs]; decide))
      · rcases hst with hst | hst
        · rw [hend, hst]
        · rw [hend, hst]
      · rw [hst] at hend
        simp only [] at hend
        have hstate : (q.hook c).state = .weighed := by rw [hqhook]; exact hst
        have hnet : (q.hook c).lastNet = some w.net := by
          rw [hqhook]
          simp only [Hook.lastNet, Option.bind_some, hweights, hw, Option.map_some]
        refine ⟨fun hg hlt => ?_, fun hno => ?_⟩
        · rw [hend, Part.judgeSetDown_of_weighed hstate (by rw [hqhook]; exact hg), hnet]
          exact if_pos (decide_eq_true hlt)
        · rw [hend]
          rcases hno with hg | hge
          · have hgrip : (q.hook c).gripper = .closed := by rw [hqhook]; exact hg
            simp only [Part.judgeSetDown, hstate, hgrip]
            rfl
          · have hlt : ¬ w.net < q.params.release := Nat.not_lt.2 hge
            simp only [Part.judgeSetDown, hnet, Option.any_some, decide_eq_false hlt, Bool.and_false, Bool.false_eq_true, if_false]

end Sys2Proof.Machine
end

section
/-! O30, O50 and O51. Plans, acknowledgements and the poll scan. -/

namespace Sys2Proof.Machine

theorem Part.Keeps.driver_eq {p q : Part} (h : p.Keeps Scope.tight q) : q.lines.driver = p.lines.driver :=
  (h.inputs.resolve_left id).1

/-- A bay whose facts give no working state is not paused by its derivation (R144, R147). -/
theorem Part.derive_of_idle {p : Part} {b : Fin 6} (h : ((p.bay b).derived).working = false) : p.derive b = p.deriveOnce b := by
  have hstate : ((p.deriveOnce b).bay b).state = (p.bay b).derived := by
    obtain ⟨flashAt, hbay⟩ := p.deriveOnce_bay b
    rw [hbay]
  simp only [Part.derive, hstate, h, Bool.and_false, Bool.false_and, Bool.false_eq_true, if_false]

theorem BayRecord.derived_idle_of_no_plan {r : BayRecord} (h : r.plan = none) : (r.derived).working = false := by
  unfold BayRecord.derived
  rw [h]
  split <;> rfl

theorem Part.answerFrame_bay (p : Part) (f : Frame) (a : Answer) (why : Option Reason) (data : List Byte) (b : Fin 6) :
    (p.answerFrame f a why data).bay b = p.bay b := by
  rw [Part.bay, Part.answerFrame_bays, Part.bay]

theorem Part.ok_bay (p : Part) (f : Frame) (data : List Byte) (b : Fin 6) : (p.ok f data).bay b = p.bay b :=
  p.answerFrame_bay f .ok none data b

/-! ## A plan discarded (R142) -/

/-- A bay whose plan is gone, before the PLACE orders to it end. -/
def Part.discarded (p : Part) (b : Fin 6) : Part :=
  p.setBay b { p.bay b with
    plan := none, noted := none, causes := { (p.bay b).causes with discrepancy := false, stale := false } }

theorem Part.discarded_bay (p : Part) (b : Fin 6) :
    (p.discarded b).bay b = { p.bay b with
      plan := none, noted := none, causes := { (p.bay b).causes with discrepancy := false, stale := false } } :=
  p.setBay_bay b _

theorem Part.discardPlan_of_none {p : Part} {b : Fin 6} (h : (p.bay b).plan = none) : p.discardPlan b = p := by
  simp only [Part.discardPlan, h]

/-- The end of the PLACE orders to a bay whose plan is gone. -/
theorem Part.discardPlan_reacts {p : Part} {b : Fin 6} (h : (p.bay b).plan.isSome = true) :
    (p.discarded b).Reacts (p.discardPlan b) ∧ (p.discarded b).SameBays (p.discardPlan b) := by
  obtain ⟨pl, hpl⟩ := Option.isSome_iff_exists.1 h
  have hunfold : p.discardPlan b = craneList.foldl (fun p c =>
      if (p.activeOrder c).any fun o => o.kind == .place && o.loc.any fun l => l.inBay b then
        p.endOrder c false (some (.refused, some .badLocation))
      else p) (p.discarded b) := by
    simp only [Part.discardPlan, hpl]
    rfl
  rw [hunfold]
  refine ⟨Part.reacts_foldl (fun q c => Part.Reacts.ite _ (q.endOrder_reacts c _ _) (.refl q)) _ _,
    Part.sameBays_foldl (fun q c => ?_) _ _⟩
  split
  · exact (q.endOrder_endsOnly c _ _).bays
  · exact .of_eq rfl

/-- What a discarded plan leaves of its bay: no plan, and neither DISCREPANCY nor STALE (R142). -/
theorem Part.discardPlan_bay {p : Part} {b : Fin 6} (h : (p.bay b).plan.isSome = true) :
    ((p.discardPlan b).bay b).plan = none ∧ ((p.discardPlan b).bay b).noted = none
      ∧ ((p.discardPlan b).bay b).causes = { (p.bay b).causes with discrepancy := false, stale := false }
      ∧ ((p.discardPlan b).bay b).rearmAt = (p.bay b).rearmAt
      ∧ ((p.discardPlan b).bay b).pollFacts = (p.bay b).pollFacts := by
  have hsame := (Part.discardPlan_reacts h).2
  have hd := p.discarded_bay b
  refine ⟨?_, ?_, ?_, ?_, ?_⟩
  · have hnone := hsame.plan_isSome b
    rw [hd] at hnone
    exact Option.isSome_eq_false_iff.1 hnone |> Option.isNone_iff_eq_none.1
  · rw [hsame.noted, hd]
  · rw [hsame.causes, hd]
  · rw [hsame.rearmAt, hd]
  · rw [hsame.pollFacts, hd]
    rfl

/-! ## The truck judged against the plan (R145) -/

/-- The judgment of the truck writes only which other truck was noted. -/
theorem Part.judgeTruck_form (p : Part) (b : Fin 6) :
    ∃ (noted : Option CoilId) (l : Link) (ns : List Notice) (lost : Nat),
      p.judgeTruck b = { p.setBay b { p.bay b with noted := noted } with
        link := l, mgmt := { p.mgmt with notices := ns, lost := lost } } := by
  have hself : p.setBay b { p.bay b with noted := (p.bay b).noted } = p :=
    congrArg (fun rs => { p with bays := { p.bays with records := rs } }) (Vector.set_getElem_self b.isLt)
  have hsame : ∃ (noted : Option CoilId) (l : Link) (ns : List Notice) (lost : Nat),
      p = { p.setBay b { p.bay b with noted := noted } with
        link := l, mgmt := { p.mgmt with notices := ns, lost := lost } } :=
    ⟨(p.bay b).noted, p.link, p.mgmt.notices, p.mgmt.lost, by rw [hself]⟩
  unfold Part.judgeTruck
  simp only []
  split
  · exact hsame
  next pl _ =>
    split
    · exact ⟨none, p.link, p.mgmt.notices, p.mgmt.lost, rfl⟩
    · split
      · exact hsame
      next id _ =>
        split
        · exact hsame
        · obtain ⟨l, ns, lost, h⟩ := (p.setBay b { p.bay b with noted := some id }).notify_form .truckMismatch b.val
            (pl.truck.elim 0 BitVec.toNat) id.toNat 0
          exact ⟨some id, l, ns, lost, h⟩

/-- The record of a bay once its truck is judged. -/
theorem Part.judgeTruck_bay (p : Part) (b : Fin 6) : ∃ noted, (p.judgeTruck b).bay b = { p.bay b with noted := noted } := by
  obtain ⟨noted, l, ns, lost, h⟩ := p.judgeTruck_form b
  refine ⟨noted, ?_⟩
  rw [h]
  exact p.setBay_bay b _

/-! ## O50 -/

/-- A PLAN_LOAD that its bay may take (R140). -/
theorem servePlanLoad_of_free {f : Frame} {p : Part} {b : Fin 6} {pl : Plan} (hread : readPlan f.payload = some (b.val, pl))
    (hc : (p.bayEntry b).configured = true) (hrange : pl.inRange = true) (hin : (p.bay b).someIncoming = false)
    (hwithin : pl.within pl.tareFront pl.tareRear = true) :
    servePlanLoad f p =
      ((((p.discardPlan b).setBay b { (p.discardPlan b).bay b with
        plan := some { pl with scalePending := ((p.discardPlan b).bayEntry b).scale }, noted := none
        causes := { ((p.discardPlan b).bay b).causes with
          discrepancy := false, stale := ((p.discardPlan b).bay b).pollStale } }).judgeTruck b).derive b).ok f [] := by
  simp only [servePlanLoad, hread, bayOf_val, hc, hrange, hin, hwithin, Bool.not_true, Bool.or_self, Bool.false_eq_true, if_false]

/-- Settles O50. -/
theorem planIsLoaded : Obligations.PlanIsLoaded := by
  unfold Obligations.PlanIsLoaded
  intro s f b pl hreq hq hread hconf hrange
  have hexec : ∀ q : Part, servePlanLoad f s.part.dropSup = q → exec .planLoad s = .next (s.withPart q) := by
    intro q h
    rw [exec_planLoad]
    refine State.act_eq hreq.1 ?_
    rw [served_of_request hreq rfl rfl (by simp [formFits, hread])]
    simp only [dropSup_await hq, h]
  have hc : (s.part.dropSup.bayEntry b).configured = true := hconf
  refine ⟨fun hin => hexec _ ?_, fun hin hwithin => hexec _ ?_, fun hin hwithin hsafe => ?_⟩
  · have hin' : (s.part.dropSup.bay b).someIncoming = true := hin
    simp only [servePlanLoad, hread, bayOf_val, hc, hrange, hin', Bool.not_true, Bool.or_self, Bool.false_eq_true, if_false, if_true]
    rfl
  · have hin' : (s.part.dropSup.bay b).someIncoming = false := hin
    simp only [servePlanLoad, hread, bayOf_val, hc, hrange, hin', hwithin, Bool.not_true, Bool.not_false, Bool.or_self,
      Bool.false_eq_true, if_false, if_true]
    rfl
  · have hserve := servePlanLoad_of_free (p := s.part.dropSup) hread hc hrange hin hwithin
    have hkeeps : s.part.Keeps Scope.tight (servePlanLoad f s.part.dropSup) :=
      s.part.dropSup_keeps.trans (servePlanLoad_keeps f _)
    have hdiscard := s.part.dropSup.discardPlan_keeps (S := Scope.tight) b
    generalize hp1 : s.part.dropSup.discardPlan b = p1 at hserve hdiscard
    have hscale : (p1.bayEntry b).scale = (s.part.bayEntry b).scale := by
      rw [Part.bayEntry, hdiscard.bayEntries]
      rfl
    have hpoll : (p1.bay b).pollStale = (s.part.bay b).pollStale := congrArg Prod.fst (hdiscard.pollFacts_eq b)
    have hcauses : { (p1.bay b).causes with discrepancy := false, stale := (p1.bay b).pollStale } =
        { (s.part.bay b).causes with discrepancy := false, stale := (s.part.bay b).pollStale } := by
      rw [hpoll]
      cases hplan : (s.part.dropSup.bay b).plan with
      | none => rw [← hp1, Part.discardPlan_of_none hplan]; rfl
      | some _ => rw [← hp1, (Part.discardPlan_bay (p := s.part.dropSup) (by rw [hplan]; rfl)).2.2.1]; rfl
    have hrearm : (p1.bay b).rearmAt = (s.part.bay b).rearmAt := by
      cases hplan : (s.part.dropSup.bay b).plan with
      | none => rw [← hp1, Part.discardPlan_of_none hplan]; rfl
      | some _ => rw [← hp1, (Part.discardPlan_bay (p := s.part.dropSup) (by rw [hplan]; rfl)).2.2.2.1]; rfl
    have hdriver : p1.lines.driver = s.part.lines.driver := hdiscard.driver_eq
    generalize hp2 : p1.setBay b { p1.bay b with
        plan := some { pl with scalePending := (p1.bayEntry b).scale }, noted := none
        causes := { (p1.bay b).causes with discrepancy := false, stale := (p1.bay b).pollStale } } = p2 at hserve
    have hbay2 : p2.bay b = { p1.bay b with
        plan := some { pl with scalePending := (p1.bayEntry b).scale }, noted := none
        causes := { (p1.bay b).causes with discrepancy := false, stale := (p1.bay b).pollStale } } := by
      rw [← hp2]
      exact p1.setBay_bay b _
    have hdriver2 : p2.lines.driver = s.part.lines.driver := by rw [← hp2]; exact hdriver
    obtain ⟨noted, hjudge⟩ := p2.judgeTruck_bay b
    have hsafe' : (p2.judgeTruck b).lines.driver[b].accepted = .active := by
      rw [(p2.judgeTruck_keeps (S := Scope.tight) b).driver_eq, hdriver2]
      exact hsafe
    have honce := (p2.judgeTruck b).derive_of_safe b hsafe'
    obtain ⟨flashAt, hbay⟩ := (p2.judgeTruck b).deriveOnce_bay b
    rw [hjudge, hbay2] at hbay
    obtain ⟨t, hnext, hpending, hpart⟩ := State.exists_next (hexec _ rfl)
    refine ⟨t, hnext, hpending, ?_⟩
    rw [hpart]
    refine ⟨?_, ?_, ?_, ?_, hkeeps.pollFacts_eq, hkeeps.records_eq, hkeeps.sameTables⟩
    · rw [hserve, Part.ok_bay, honce, hbay, ← hscale]
    · rw [hserve, Part.ok_bay, honce, hbay, ← hcauses]
    · rw [hserve, Part.ok_bay, honce]
      exact Part.deriveOnce_state _ b
    · rw [hserve, Part.ok_bay, honce, hbay, ← hrearm]

/-! ## O51 -/

/-- Settles O51. -/
theorem planIsClearedAndBayAcknowledged : Obligations.PlanIsClearedAndBayAcknowledged := by
  unfold Obligations.PlanIsClearedAndBayAcknowledged
  intro s f b hq hconf hread
  have hc : (s.part.dropSup.bayEntry b).configured = true := hconf
  have hclear : ∀ q : Part, s.Request .planClear f → servePlanClear f s.part.dropSup = q →
      exec .planClear s = .next (s.withPart q) := by
    intro q hreq h
    rw [exec_planClear]
    refine State.act_eq hreq.1 ?_
    rw [served_of_request hreq rfl rfl (by simp [formFits, hread])]
    simp only [dropSup_await hq, h]
  have hack : ∀ q : Part, s.Request .bayAck f → serveBayAck f s.part.dropSup = q → exec .bayAck s = .next (s.withPart q) := by
    intro q hreq h
    rw [exec_bayAck]
    refine State.act_eq hreq.1 ?_
    rw [served_of_request hreq rfl rfl (by simp [formFits, hread])]
    simp only [dropSup_await hq, h]
  refine ⟨fun hreq hplan => hclear _ hreq ?_, fun hreq hin => hclear _ hreq ?_, fun hreq hplan hin => ?_,
    fun hreq hd => hack _ hreq ?_, fun hreq hd hsafe => hack _ hreq ?_⟩
  · have hplan' : (s.part.dropSup.bay b).plan = none := hplan
    have hin : (s.part.dropSup.bay b).someIncoming = false := by rw [BayRecord.someIncoming, hplan']; rfl
    simp only [servePlanClear, hread, bayOf_val, hc, hin, hplan', Bool.not_true, Bool.false_eq_true, if_false,
      Option.isNone_none, if_true]
  · have hin' : (s.part.dropSup.bay b).someIncoming = true := hin
    simp only [servePlanClear, hread, bayOf_val, hc, hin', Bool.not_true, Bool.false_eq_true, if_false, if_true]
    rfl
  · have hplan' : (s.part.dropSup.bay b).plan.isSome = true := Option.isSome_iff_ne_none.2 hplan
    have hnone : (s.part.dropSup.bay b).plan.isNone = false := by
      rw [← Option.not_isSome, hplan']
      rfl
    have hin' : (s.part.dropSup.bay b).someIncoming = false := hin
    have hserve : servePlanClear f s.part.dropSup = ((s.part.dropSup.discardPlan b).derive b).ok f [] := by
      simp only [servePlanClear, hread, bayOf_val, hc, hin', hnone, Bool.not_true, Bool.false_eq_true, if_false]
    have hkeeps : s.part.Keeps Scope.tight (servePlanClear f s.part.dropSup) :=
      s.part.dropSup_keeps.trans (servePlanClear_keeps f _)
    obtain ⟨hgone, _, hcauses, _, _⟩ := Part.discardPlan_bay hplan'
    have honce : (s.part.dropSup.discardPlan b).derive b = (s.part.dropSup.discardPlan b).deriveOnce b :=
      Part.derive_of_idle (BayRecord.derived_idle_of_no_plan hgone)
    obtain ⟨flashAt, hbay⟩ := (s.part.dropSup.discardPlan b).deriveOnce_bay b
    obtain ⟨t, hnext, hpending, hpart⟩ := State.exists_next (hclear _ hreq rfl)
    refine ⟨t, hnext, hpending, ?_⟩
    rw [hpart]
    refine ⟨?_, ?_, ?_, hkeeps.pollFacts_eq, hkeeps.records_eq, hkeeps.sameTables⟩
    · rw [hserve, Part.ok_bay, honce, hbay]
      exact hgone
    · rw [hserve, Part.ok_bay, honce, hbay]
      exact hcauses
    · rw [hserve, Part.ok_bay]
      exact Part.derive_state _ b
  · have hd' : (s.part.dropSup.bay b).causes.discrepancy = false := hd
    simp only [serveBayAck, hread, bayOf_val, hc, hd', Bool.not_true, Bool.false_eq_true, if_false]
    rfl
  · have hd' : (s.part.dropSup.bay b).causes.discrepancy = true := hd
    simp only [serveBayAck, hread, bayOf_val, hc, hd', Bool.not_true, Bool.false_eq_true, if_false, if_true]
    have hderive := Part.derive_of_safe (s.part.dropSup.setBay b { s.part.dropSup.bay b with
      causes := { (s.part.dropSup.bay b).causes with discrepancy := false } }) b hsafe
    rw [hderive]
    obtain ⟨flashAt, hbay⟩ := (s.part.dropSup.setBay b { s.part.dropSup.bay b with
      causes := { (s.part.dropSup.bay b).causes with discrepancy := false } }).deriveOnce_bay b
    rw [hbay, Part.setBay_bay]
    rfl

/-! ## O30 -/

theorem Part.missPoll_of_early {p : Part} {b : Fin 6} (h : (p.bay b).misses < 2 ∨ (p.bay b).pollStale = true) :
    p.missPoll b =
      p.setBay b { p.bay b with misses := min 3 ((p.bay b).misses + 1), totalMisses := bump (p.bay b).totalMisses } := by
  refine if_neg fun ⟨h3, hs⟩ => ?_
  rcases h with h | h
  · omega
  · rw [h] at hs
    exact Bool.noConfusion hs

/-- The third miss in succession makes a bay poll-STALE (R139). -/
theorem Part.missPoll_third {p : Part} {b : Fin 6} (h : 2 ≤ (p.bay b).misses) (hs : (p.bay b).pollStale = false) :
    ((p.missPoll b).bay b).pollFacts =
        (true, 3, bump (p.bay b).totalMisses, (p.bay b).malformed, (p.bay b).late, (p.bay b).last)
      ∧ ((p.missPoll b).bay b).causes.stale = (p.bay b).plan.isSome := by
  have h3 : min 3 ((p.bay b).misses + 1) = 3 := by omega
  let counted := p.setBay b { p.bay b with misses := min 3 ((p.bay b).misses + 1), totalMisses := bump (p.bay b).totalMisses }
  have hcounted : counted.bay b =
      { p.bay b with misses := min 3 ((p.bay b).misses + 1), totalMisses := bump (p.bay b).totalMisses } := p.setBay_bay b _
  let stale := counted.setBay b { counted.bay b with
    pollStale := true, causes := { (counted.bay b).causes with stale := (counted.bay b).plan.isSome } }
  have hstale : stale.bay b = { counted.bay b with
    pollStale := true, causes := { (counted.bay b).causes with stale := (counted.bay b).plan.isSome } } := counted.setBay_bay b _
  have hmiss : p.missPoll b = (stale.derive b).notify .bayState b.val (2 + 256 * ((stale.derive b).bay b).state.code)
      ((stale.derive b).bay b).state.code ((stale.derive b).bay b).causes.flags := if_pos ⟨h3, hs⟩
  have hreacts := stale.derive_reacts b
  rw [hmiss, Part.notify_bay, hreacts.pollFacts, hreacts.stale, hstale, hcounted, h3]
  exact ⟨rfl, rfl⟩

theorem Part.moveScan_of_next {p : Part} {b next : Fin 6} (h : p.nextBay b = some next) : p.moveScan b = p.startPoll next := by
  rw [Part.moveScan, h]

theorem Part.nextBay_congr {p q : Part} (h : q.bays.entries = p.bays.entries) (b : Fin 6) : q.nextBay b = p.nextBay b := by
  have hconf : q.configuredBays = p.configuredBays := by
    unfold Part.configuredBays Part.bayEntry
    rw [h]
  rw [Part.nextBay, Part.nextBay, hconf]

/-- The poll of a bay starts its dwell and touches no bay's record. -/
theorem Part.startPoll_bays (p : Part) (b : Fin 6) :
    (∀ d, (p.startPoll b).bay d = p.bay d) ∧ ((p.startPoll b).bays.scan.map Scan.bay = some b) := by
  unfold Part.startPoll
  simp only []
  split
  · exact ⟨fun _ => rfl, rfl⟩
  · exact ⟨fun _ => rfl, rfl⟩

/-- A poll that NORMAL has room for (R137). -/
theorem Part.startPoll_of_room {p : Part} {b : Fin 6} (h : p.link.normal.length < 16) :
    p.startPoll b =
      { p.onLink (Link.pushNormal (.poll b) (BitVec.ofNat 8 (p.bayEntry b).station) .bayPoll (pollPayload b (p.bay b))) with
        bays := { p.bays with scan := some ⟨b, after p.now (p.bayEntry b).dwell, false, false⟩ } } := by
  have hroom : p.link.normalRoom = true := (Link.normalRoom_iff _).2 h
  simp only [Part.startPoll, hroom, if_true]
  rfl

/-- A poll that is skipped and counted, NORMAL being full (R137, R171). -/
theorem Part.startPoll_of_full {p : Part} {b : Fin 6} (h : 16 ≤ p.link.normal.length) :
    p.startPoll b =
      { p.onLink (fun l => { l with crane := { l.crane with
          counts := { l.crane.counts with pollSkips := bump l.crane.counts.pollSkips } } }) with
        bays := { p.bays with scan := some ⟨b, after p.now (p.bayEntry b).dwell, false, true⟩ } } := by
  have hroom : p.link.normalRoom = false := (Link.normalRoom_eq_false_iff _).2 h
  simp only [Part.startPoll, hroom, Bool.false_eq_true, if_false]
  rfl

/-- Settles O30. -/
theorem dwellEndPollsTheNextBay : Obligations.DwellEndPollsTheNextBay := by
  unfold Obligations.DwellEndPollsTheNextBay
  intro s sc next hr hq hscan hpassed hnext e dwellEnd polled r
  have hexec : ∀ q : Part, s.part.endDwell sc = q → exec .dwellEnd s = .next (s.withPart q) := by
    intro q h
    rw [exec_dwellEnd]
    refine State.act_eq hr ?_
    have hdue : s.part.dwellDue = true := by
      rw [Part.dwellDue, hscan, Option.any_some]
      exact hpassed
    rw [Part.expireDwell, whenDue_of_quiet hq, if_pos hdue, hscan, Option.elim_some, h]
  have hpoll : ∀ q : Part, q.bays.entries = s.part.bays.entries → q.mgmt.clock = s.part.mgmt.clock →
      q.moveScan sc.bay = polled q := by
    intro q hentries hclock
    rw [Part.moveScan_of_next ((Part.nextBay_congr hentries sc.bay).trans hnext)]
    have hentry : q.bayEntry next = e := congrArg (fun es : Vector BayEntry 6 => es[next]) hentries
    have hend : after q.now e.dwell = dwellEnd := congrArg (fun t : Time => t + BitVec.ofNat 32 (max e.allowance e.settle)) hclock
    by_cases hroom : q.link.normal.length < 16
    · rw [Part.startPoll_of_room hroom, hentry, hend]
      exact (if_pos hroom).symm
    · rw [Part.startPoll_of_full (Nat.not_lt.1 hroom), hentry, hend]
      exact (if_neg hroom).symm
  have hmissed : sc.taken = false ∨ sc.skipped = true → (sc.taken && !sc.skipped) = false := by
    rintro (h | h) <;> simp [h]
  refine ⟨fun htaken hskipped => hexec _ ?_, fun hno hearly => hexec _ ?_, fun hno h2 hstale => ?_⟩
  · simp only [Part.endDwell, htaken, hskipped, Bool.not_false, Bool.and_self, if_true]
    exact hpoll _ rfl rfl
  · simp only [Part.endDwell, hmissed hno, Bool.false_eq_true, if_false, Part.missPoll_of_early hearly]
    exact hpoll _ rfl rfl
  · have hend : s.part.endDwell sc = (s.part.missPoll sc.bay).startPoll next := by
      simp only [Part.endDwell, hmissed hno, Bool.false_eq_true, if_false]
      exact Part.moveScan_of_next ((Part.nextBay_congr (s.part.missPoll_keeps (S := Scope.wide) sc.bay trivial).bayEntries
        sc.bay).trans hnext)
    obtain ⟨hbays, hscan'⟩ := (s.part.missPoll sc.bay).startPoll_bays next
    obtain ⟨hfacts, hstale'⟩ := Part.missPoll_third h2 hstale
    obtain ⟨t, hnext', hpending, hpart⟩ := State.exists_next (hexec _ hend)
    refine ⟨t, hnext', hpending, ?_⟩
    rw [hpart, hbays]
    exact ⟨hfacts, hstale', hscan', ((s.part.missPoll_keeps (S := Scope.wide) sc.bay trivial).trans
      (Part.startPoll_keeps _ next trivial)).sameTables⟩

end Sys2Proof.Machine
end

section
/-! O19. A report that is taken. -/

namespace Sys2Proof.Machine

/-! ## The record as the report finds it (R138, R139) -/

/-- A bay's record once a report has ended its misses and is its last report (R138, R139). -/
def BayRecord.reported (r : BayRecord) (rep : Report) : BayRecord :=
  { r with
    pollStale := false, misses := 0, last := some rep
    causes := if r.pollStale then { r.causes with stale := false } else r.causes }

/-- The part once a report has been noted, before it has any effect. -/
def Part.reported (p : Part) (b : Fin 6) (rep : Report) : Part :=
  (p.endPollStale b).setBay b { (p.endPollStale b).bay b with last := some rep }

theorem Part.endPollStale_form (p : Part) (b : Fin 6) :
    ∃ (l : Link) (ns : List Notice) (lost : Nat), p.endPollStale b =
      { p.setBay b { p.bay b with
          pollStale := false, misses := 0
          causes := if (p.bay b).pollStale then { (p.bay b).causes with stale := false } else (p.bay b).causes } with
        link := l, mgmt := { p.mgmt with notices := ns, lost := lost } } := by
  cases h : (p.bay b).pollStale with
  | true =>
    obtain ⟨l, ns, lost, hn⟩ := (p.setBay b { p.bay b with
      pollStale := false, misses := 0, causes := { (p.bay b).causes with stale := false } }).notify_form .bayState b.val
        (3 + 256 * (p.bay b).state.code) (p.bay b).state.code ({ (p.bay b).causes with stale := false } : PauseSet).flags
    exact ⟨l, ns, lost, (if_pos h).trans hn⟩
  | false =>
    have hrecord : { p.bay b with misses := 0 } = { p.bay b with pollStale := false, misses := 0 } := by rw [← h]
    refine ⟨p.link, p.mgmt.notices, p.mgmt.lost, (if_neg (by rw [h]; exact Bool.false_ne_true)).trans ?_⟩
    rw [hrecord]
    rfl

theorem Part.reported_form (p : Part) (b : Fin 6) (rep : Report) :
    ∃ (l : Link) (ns : List Notice) (lost : Nat), p.reported b rep =
      { p.setBay b ((p.bay b).reported rep) with link := l, mgmt := { p.mgmt with notices := ns, lost := lost } } := by
  obtain ⟨l, ns, lost, h⟩ := p.endPollStale_form b
  refine ⟨l, ns, lost, ?_⟩
  rw [Part.reported, h]
  have hbay := p.setBay_bay b { p.bay b with
    pollStale := false, misses := 0
    causes := if (p.bay b).pollStale then { (p.bay b).causes with stale := false } else (p.bay b).causes }
  have hset : ∀ r r' : BayRecord, (p.setBay b r).setBay b r' = p.setBay b r' := fun r r' =>
    congrArg (fun rs => { p with bays := { p.bays with records := rs } }) (Vector.set_set ..)
  exact congrArg (fun q : Part => { q with link := l, mgmt := { p.mgmt with notices := ns, lost := lost } })
    ((hset _ _).trans (congrArg (fun r : BayRecord => p.setBay b { r with last := some rep }) hbay))

theorem Part.reported_bay (p : Part) (b : Fin 6) (rep : Report) : (p.reported b rep).bay b = (p.bay b).reported rep := by
  obtain ⟨l, ns, lost, h⟩ := p.reported_form b rep
  rw [h]
  exact p.setBay_bay b _

theorem Part.reported_bay_ne (p : Part) {b d : Fin 6} (rep : Report) (hd : d ≠ b) : (p.reported b rep).bay d = p.bay d := by
  obtain ⟨l, ns, lost, h⟩ := p.reported_form b rep
  rw [h]
  exact p.setBay_bay_ne b d _ hd

/-! ## TRUCK_LEFT (R146) -/

/-- Whom a truck out of position stops does not depend on the stops of the others. -/
theorem Part.stopBound_stops {p : Part} {b : Fin 6} {c : Fin 4} (hc : (p.entry c).configured = true) (hb : p.boundFor c b = true) :
    ((p.stopBound b).latch c).causes.has .truckLeft = true := by
  have hwalk : ∀ (cs : List (Fin 4)) (q : Part), cs.Nodup → c ∈ cs → (q.entry c).configured = true → q.boundFor c b = true →
      ((cs.foldl (fun p c => if p.boundFor c b then p.requestStop c .truckLeft (some b) else p) q).latch c).causes.has .truckLeft
        = true := by
    intro cs
    induction cs with
    | nil => exact fun _ _ h => absurd h List.not_mem_nil
    | cons d ds ih =>
      intro q hnodup hmem hconf hbound
      obtain ⟨hnot, hrest⟩ := List.nodup_cons.1 hnodup
      rw [List.foldl_cons]
      by_cases hdc : d = c
      · subst hdc
        rw [if_pos hbound]
        exact (Part.reacts_foldl (fun q c => Part.Reacts.ite _ (q.requestStop_reacts c _ _) (.refl q)) ds _).causes d .truckLeft
          (q.requestStop_has d _ _ hconf)
      · have hmem' : c ∈ ds := (List.mem_cons.1 hmem).resolve_left (Ne.symm hdc)
        have honly : q.OnlyCrane d (if q.boundFor d b then q.requestStop d .truckLeft (some b) else q) := by
          split
          · exact q.requestStop_onlyCrane d _ _
          · exact .refl d q
        refine ih _ hrest hmem' ?_ ?_
        · rw [Part.entry, honly.tracker]
          exact hconf
        · rw [Part.boundFor, honly.hook c (Ne.symm hdc)]
          exact hbound
  refine hwalk _ p ?_ ((mem_configured_iff p c).2 hc) hc hb
  exact (by decide : craneList.Nodup).filter _

theorem Part.stopBound_reacts (p : Part) (b : Fin 6) : p.Reacts (p.stopBound b) :=
  Part.reacts_foldl (fun q c => Part.Reacts.ite _ (q.requestStop_reacts c _ _) (.refl q)) _ _

theorem Part.stopBound_sameBays (p : Part) (b : Fin 6) : p.SameBays (p.stopBound b) := by
  refine Part.sameBays_foldl (fun q c => ?_) _ _
  split
  · exact (q.requestStop_onlyCrane c _ _).bays
  · exact .of_eq rfl

/-! ## A truck that has left (R146) -/

theorem Part.noticeLeftEarly_form (p : Part) (b : Fin 6) :
    ∃ (l : Link) (ns : List Notice) (lost : Nat), p.noticeLeftEarly b =
      { p with link := l, mgmt := { p.mgmt with notices := ns, lost := lost } } := by
  unfold Part.noticeLeftEarly
  split
  · exact ⟨_, _, _, rfl⟩
  · split
    · exact p.notify_form _ _ _ _ _
    · exact ⟨_, _, _, rfl⟩

theorem Part.noticeLeftEarly_bay (p : Part) (b d : Fin 6) : (p.noticeLeftEarly b).bay d = p.bay d := by
  obtain ⟨l, ns, lost, h⟩ := p.noticeLeftEarly_form b
  rw [h]
  rfl

/-- What a departure leaves of its bay (R142, R146). -/
theorem Part.depart_bay (p : Part) (b : Fin 6) :
    ((p.depart b).bay b).plan = none
      ∧ ((p.bay b).plan.isSome = true → ((p.depart b).bay b).noted = none
        ∧ ((p.depart b).bay b).causes.discrepancy = false ∧ ((p.depart b).bay b).causes.stale = false) := by
  have hderive := Part.derive_reacts ((p.noticeLeftEarly b).discardPlan b) b
  have hplan := hderive.plan b
  have hnoted := hderive.noted b
  have hdiscrepancy := hderive.discrepancy b
  have hstale := hderive.stale b
  rw [← Part.depart] at hplan hnoted hdiscrepancy hstale
  rw [hnoted, hdiscrepancy, hstale]
  have hbay := p.noticeLeftEarly_bay b b
  cases hp : (p.bay b).plan with
  | none =>
    have hsame := Part.discardPlan_of_none (p := p.noticeLeftEarly b) (b := b) (by rw [hbay, hp])
    rw [hsame, hbay, hp, Option.map_none, Option.map_eq_none_iff] at hplan
    exact ⟨hplan, fun h => absurd h (by decide)⟩
  | some pl =>
    obtain ⟨hgone, hno, hcauses, _⟩ := Part.discardPlan_bay (p := p.noticeLeftEarly b) (b := b) (by rw [hbay, hp]; rfl)
    rw [hgone, Option.map_none, Option.map_eq_none_iff] at hplan
    rw [hno, hcauses]
    exact ⟨hplan, fun _ => ⟨rfl, rfl, rfl⟩⟩

theorem Part.discardPlan_causes {p : Part} {b : Fin 6} {c : Fin 4} {x : StopCause} (h : (p.latch c).causes.has x = true) :
    ((p.discardPlan b).latch c).causes.has x = true := by
  cases hp : (p.bay b).plan with
  | none => rw [Part.discardPlan_of_none hp]; exact h
  | some pl => exact (Part.discardPlan_reacts (by rw [hp]; rfl)).1.causes c x h

theorem Part.depart_causes {p : Part} {b : Fin 6} {c : Fin 4} {x : StopCause} (h : (p.latch c).causes.has x = true) :
    ((p.depart b).latch c).causes.has x = true := by
  refine (Part.derive_reacts _ b).causes c x (Part.discardPlan_causes ?_)
  obtain ⟨l, ns, lost, hn⟩ := p.noticeLeftEarly_form b
  rw [hn]
  exact h

/-! ## The truck judged, and its scale check (R145, R154) -/

/-- A truck that the plan is for. -/
theorem Part.judgeTruck_of_matched {p : Part} {b : Fin 6} {pl : Plan} (hp : (p.bay b).plan = some pl)
    (hm : (p.bay b).matched pl = true) : ((p.judgeTruck b).bay b).noted = none := by
  simp only [Part.judgeTruck, hp, hm, if_true, Part.setBay_bay]

/-- Another truck than the plan's is noted. -/
theorem Part.judgeTruck_of_other {p : Part} {b : Fin 6} {pl : Plan} {id : CoilId} (hp : (p.bay b).plan = some pl)
    (hm : (p.bay b).matched pl = false) (hid : (p.bay b).last.bind Report.truck = some id) :
    ((p.judgeTruck b).bay b).noted = some id := by
  by_cases hn : (p.bay b).noted = some id
  · simp only [Part.judgeTruck, hp, hm, hid, hn, Bool.false_eq_true, if_false, if_true]
  · simp only [Part.judgeTruck, hp, hm, hid, hn, Bool.false_eq_true, if_false, Part.notify_bay, Part.setBay_bay]

theorem Part.judgeTruck_causes {p : Part} {b : Fin 6} {c : Fin 4} {x : StopCause} (h : (p.latch c).causes.has x = true) :
    ((p.judgeTruck b).latch c).causes.has x = true := by
  obtain ⟨noted, l, ns, lost, hj⟩ := p.judgeTruck_form b
  rw [hj]
  exact h

/-- The scale check of a plan meets its report (R154). -/
def Plan.scaleDue (pl : Plan) (rep : Report) : Bool := pl.scalePending && rep.present && rep.inPosition && rep.stable

/-- A bay whose pending scale check is over. -/
def Part.scaleDone (p : Part) (b : Fin 6) : Part := p.onPlan b fun pl => { pl with scalePending := false }

/-- A bay whose scale check has failed, before its state is derived. -/
def Part.scaleFailed (p : Part) (b : Fin 6) (rep : Report) (pl : Plan) : Part :=
  ((p.scaleDone b).setBay b { (p.scaleDone b).bay b with
    causes := { ((p.scaleDone b).bay b).causes with discrepancy := true } }).notify .scaleDiscrepancy b.val (pl.front + pl.rear).toNat
      rep.gross pl.placedCount

theorem Part.checkScale_of_not_due {p : Part} {b : Fin 6} {rep : Report}
    (h : ∀ pl, (p.bay b).plan = some pl → pl.scaleDue rep = false) : p.checkScale b rep = p := by
  cases hp : (p.bay b).plan with
  | none => simp only [Part.checkScale, hp]
  | some pl =>
    have hd := h pl hp
    unfold Plan.scaleDue at hd
    simp only [Part.checkScale, hp, hd, Bool.not_false, if_true]

theorem Part.checkScale_of_due {p : Part} {b : Fin 6} {rep : Report} {pl : Plan} (hp : (p.bay b).plan = some pl)
    (hd : pl.scaleDue rep = true) :
    p.checkScale b rep =
      if (p.bayEntry b).scaleTolerance < apart rep.gross (pl.front + pl.rear).toNat then (p.scaleFailed b rep pl).derive b
      else p.scaleDone b := by
  unfold Plan.scaleDue at hd
  simp only [Part.checkScale, hp, hd, Bool.not_true, Bool.false_eq_true, if_false]
  rfl

theorem Part.scaleDone_bay {p : Part} {b : Fin 6} {pl : Plan} (hp : (p.bay b).plan = some pl) :
    (p.scaleDone b).bay b = { p.bay b with plan := some { pl with scalePending := false } } := by
  rw [Part.scaleDone, Part.onPlan, Part.setBay_bay, hp]
  rfl

theorem Part.scaleFailed_bay {p : Part} {b : Fin 6} {pl : Plan} (hp : (p.bay b).plan = some pl) (rep : Report) :
    (p.scaleFailed b rep pl).bay b =
      { p.bay b with plan := some { pl with scalePending := false }, causes := { (p.bay b).causes with discrepancy := true } } := by
  rw [Part.scaleFailed, Part.notify_bay, Part.setBay_bay, Part.scaleDone_bay hp]

theorem BayRecord.derived_scalePending {r : BayRecord} {pl : Plan} (hp : r.plan = some pl) (on : Bool) :
    { r with plan := some { pl with scalePending := on } }.derived = r.derived := by
  unfold BayRecord.derived
  rw [hp]
  rfl

/-- What a met scale check does to its bay. -/
theorem Part.checkScale_bay {p : Part} {b : Fin 6} {rep : Report} {pl : Plan} (hp : (p.bay b).plan = some pl)
    (hd : pl.scaleDue rep = true) :
    ((p.checkScale b rep).bay b).plan.map Plan.scalePending = some false
      ∧ (((p.checkScale b rep).bay b).causes.discrepancy = true ↔
        (p.bay b).causes.discrepancy = true ∨ (p.bayEntry b).scaleTolerance < apart rep.gross (pl.front + pl.rear).toNat) := by
  rw [Part.checkScale_of_due hp hd]
  split
  next hfar =>
    have hderive := Part.derive_reacts (p.scaleFailed b rep pl) b
    rw [hderive.discrepancy, Part.scaleFailed_bay hp]
    refine ⟨?_, by simp [hfar]⟩
    have hplan := congrArg (Option.map Plan.scalePending) (hderive.plan b)
    rw [Part.scaleFailed_bay hp, Option.map_map, Option.map_map] at hplan
    exact hplan
  next hnear =>
    rw [Part.scaleDone_bay hp]
    exact ⟨rfl, by simp [hnear]⟩

theorem Part.checkScale_noted (p : Part) (b : Fin 6) (rep : Report) : ((p.checkScale b rep).bay b).noted = (p.bay b).noted := by
  by_cases h : ∃ pl, (p.bay b).plan = some pl ∧ pl.scaleDue rep = true
  · obtain ⟨pl, hp, hd⟩ := h
    rw [Part.checkScale_of_due hp hd]
    split
    · rw [(Part.derive_reacts _ b).noted, Part.scaleFailed_bay hp]
    · rw [Part.scaleDone_bay hp]
  · rw [Part.checkScale_of_not_due fun pl hp => Bool.eq_false_iff.2 fun hd => h ⟨pl, hp, hd⟩]

theorem Part.checkScale_state {p : Part} {b : Fin 6} (rep : Report) (hst : (p.bay b).state = (p.bay b).derived) :
    ((p.checkScale b rep).bay b).state = ((p.checkScale b rep).bay b).derived := by
  by_cases h : ∃ pl, (p.bay b).plan = some pl ∧ pl.scaleDue rep = true
  · obtain ⟨pl, hp, hd⟩ := h
    rw [Part.checkScale_of_due hp hd]
    split
    · exact Part.derive_state _ b
    · rw [Part.scaleDone_bay hp, BayRecord.derived_scalePending hp]
      exact hst
  · rw [Part.checkScale_of_not_due fun pl hp => Bool.eq_false_iff.2 fun hd => h ⟨pl, hp, hd⟩]
    exact hst

theorem Part.checkScale_causes {p : Part} {b : Fin 6} (rep : Report) {c : Fin 4} {x : StopCause}
    (h : (p.latch c).causes.has x = true) : ((p.checkScale b rep).latch c).causes.has x = true := by
  by_cases hdue : ∃ pl, (p.bay b).plan = some pl ∧ pl.scaleDue rep = true
  · obtain ⟨pl, hp, hd⟩ := hdue
    rw [Part.checkScale_of_due hp hd]
    split
    · exact (Part.derive_reacts _ b).causes c x ((Part.notify_reacts _ _ _ _ _ _).causes c x h)
    · exact h
  · rw [Part.checkScale_of_not_due fun pl hp => Bool.eq_false_iff.2 fun hd => hdue ⟨pl, hp, hd⟩]
    exact h

/-! ## The report as a whole (R138) -/

/-- A bay after a report, its bound cranes stopped if the truck is out of position (R146). -/
def Part.positioned (p : Part) (b : Fin 6) (rep : Report) : Part :=
  if rep.inPosition then p.reported b rep else (p.reported b rep).stopBound b

theorem Part.takeReport_eq (p : Part) (b : Fin 6) (rep : Report) :
    p.takeReport b rep =
      if !rep.present && ((p.positioned b rep).bay b).state != .empty then (p.positioned b rep).depart b
      else (((p.positioned b rep).judgeTruck b).derive b).checkScale b rep := rfl

theorem Part.positioned_reacts (p : Part) (b : Fin 6) (rep : Report) : (p.reported b rep).Reacts (p.positioned b rep) :=
  Part.Reacts.ite _ (.refl _) (Part.stopBound_reacts _ b)

theorem Part.positioned_sameBays (p : Part) (b : Fin 6) (rep : Report) : (p.reported b rep).SameBays (p.positioned b rep) := by
  unfold Part.positioned
  split
  · exact .of_eq rfl
  · exact Part.stopBound_sameBays _ b

/-- What follows the stops of a report keeps what the polls brought (R138). -/
theorem Part.takeReport_tail_keeps (p : Part) (b : Fin 6) (rep : Report) :
    (p.reported b rep).Keeps Scope.tight (p.takeReport b rep) := by
  have hpos : (p.reported b rep).Keeps Scope.tight (p.positioned b rep) :=
    Part.keeps_ite _ (fun _ => .refl _) fun _ => Part.stopBound_keeps _ b
  rw [Part.takeReport_eq]
  exact hpos.trans (Part.keeps_ite _ (fun _ => Part.depart_keeps _ b) fun _ =>
    ((Part.judgeTruck_keeps _ b).trans (Part.derive_keeps _ b)).trans (Part.checkScale_keeps _ b rep))

theorem Part.takeReport_state (p : Part) (b : Fin 6) (rep : Report) :
    ((p.takeReport b rep).bay b).state = ((p.takeReport b rep).bay b).derived := by
  rw [Part.takeReport_eq]
  split
  · exact Part.derive_state _ b
  · exact Part.checkScale_state rep (Part.derive_state _ b)

theorem Part.takeReport_causes {p : Part} {b : Fin 6} {rep : Report} {c : Fin 4} {x : StopCause}
    (h : ((p.positioned b rep).latch c).causes.has x = true) : ((p.takeReport b rep).latch c).causes.has x = true := by
  rw [Part.takeReport_eq]
  split
  · exact Part.depart_causes h
  · exact Part.checkScale_causes rep ((Part.derive_reacts _ b).causes c x (Part.judgeTruck_causes h))

/-- A truck out of position stops every crane bound for the bay with TRUCK_LEFT (R146). -/
theorem Part.takeReport_truckLeft {p : Part} {b : Fin 6} {rep : Report} {c : Fin 4} (hpos : rep.inPosition = false)
    (hc : (p.entry c).configured = true) (hb : p.boundFor c b = true) :
    ((p.takeReport b rep).latch c).causes.truckLeft = true := by
  refine Part.takeReport_causes (x := .truckLeft) ?_
  obtain ⟨l, ns, lost, hform⟩ := p.reported_form b rep
  have hc' : ((p.reported b rep).entry c).configured = true := by rw [hform]; exact hc
  have hb' : (p.reported b rep).boundFor c b = true := by rw [hform]; exact hb
  rw [Part.positioned, hpos, if_neg Bool.false_ne_true]
  exact Part.stopBound_stops hc' hb'

/-- The bay as its truck is judged: with the plan, the causes but for STALE, and the state that it had. -/
theorem Part.positioned_bay (p : Part) (b : Fin 6) (rep : Report) :
    ((p.positioned b rep).bay b).last = some rep ∧ ((p.positioned b rep).bay b).state = (p.bay b).state
      ∧ ((p.positioned b rep).bay b).plan.map Plan.bare = (p.bay b).plan.map Plan.bare
      ∧ ((p.positioned b rep).bay b).causes.discrepancy = (p.bay b).causes.discrepancy := by
  have hsame := p.positioned_sameBays b rep
  have hbay := p.reported_bay b rep
  refine ⟨?_, ?_, ?_, ?_⟩
  · rw [hsame.last, hbay]
    rfl
  · rw [hsame.state, hbay]
    rfl
  · rw [hsame.plan, hbay]
    rfl
  · rw [hsame.causes, hbay]
    simp only [BayRecord.reported]
    split <;> rfl

/-- A truck that is absent (R146). -/
theorem Part.takeReport_absent {p : Part} {b : Fin 6} {rep : Report} (h : rep.present = false) :
    ((p.takeReport b rep).bay b).state = .empty
      ∧ ((p.bay b).state ≠ .empty → ((p.takeReport b rep).bay b).plan = none
        ∧ ((p.bay b).plan.isSome = true → ((p.takeReport b rep).bay b).noted = none
          ∧ ((p.takeReport b rep).bay b).causes.discrepancy = false ∧ ((p.takeReport b rep).bay b).causes.stale = false)) := by
  obtain ⟨_, hstate, hplan, _⟩ := p.positioned_bay b rep
  refine ⟨?_, fun hne => ?_⟩
  · rw [Part.takeReport_state, BayRecord.derived_empty_iff]
    have hlast : ((p.takeReport b rep).bay b).last = some rep := by
      have hfacts := congrArg (fun x => x.2.2.2.2.2) ((p.takeReport_tail_keeps b rep).pollFacts_eq b)
      rw [p.reported_bay] at hfacts
      exact hfacts
    rw [BayRecord.present, hlast, Option.any_some, h]
  · have hdepart : p.takeReport b rep = (p.positioned b rep).depart b := by
      rw [Part.takeReport_eq, h, hstate]
      exact if_pos (by simp [hne])
    rw [hdepart]
    obtain ⟨hgone, hclean⟩ := (p.positioned b rep).depart_bay b
    refine ⟨hgone, fun hsome => hclean ?_⟩
    have := congrArg Option.isSome hplan
    rw [Option.isSome_map, Option.isSome_map] at this
    exact this.trans hsome

/-- Plans alike but for their placements agree on the truck, the scale check and the loads. -/
theorem Plan.of_bare_eq {p q : Plan} (h : p.bare = q.bare) :
    p.truck = q.truck ∧ p.scalePending = q.scalePending ∧ p.front = q.front ∧ p.rear = q.rear := by
  have htruck := congrArg Plan.truck h
  have hscale := congrArg Plan.scalePending h
  have hfront := congrArg Plan.front h
  have hrear := congrArg Plan.rear h
  exact ⟨htruck, hscale, hfront, hrear⟩

/-- A truck that is present is judged against the plan, and meets its pending scale check (R145, R154). -/
theorem Part.takeReport_present {p : Part} {b : Fin 6} {rep : Report} {pl : Plan} (hp : (p.bay b).plan = some pl)
    (h : rep.present = true) :
    (pl.truck = none ∨ pl.truck = rep.truck → ((p.takeReport b rep).bay b).noted = none)
      ∧ (∀ id, rep.truck = some id → pl.truck.isSome = true → pl.truck ≠ some id →
        ((p.takeReport b rep).bay b).noted = some id)
      ∧ (pl.scalePending = true → rep.inPosition = true → rep.stable = true →
        ((p.takeReport b rep).bay b).plan.map Plan.scalePending = some false
          ∧ (((p.takeReport b rep).bay b).causes.discrepancy = true ↔
            (p.bay b).causes.discrepancy = true ∨ (p.bayEntry b).scaleTolerance < apart rep.gross (pl.front + pl.rear).toNat)) := by
  obtain ⟨hlast, _, hbare, hdisc⟩ := p.positioned_bay b rep
  have htake : p.takeReport b rep = (((p.positioned b rep).judgeTruck b).derive b).checkScale b rep := by
    rw [Part.takeReport_eq, h]
    rfl
  rw [hp, Option.map_some, Option.map_eq_some_iff] at hbare
  obtain ⟨pl2, hp2, hpl2⟩ := hbare
  obtain ⟨htruck, -⟩ := Plan.of_bare_eq hpl2
  have hnoted : ((p.takeReport b rep).bay b).noted = (((p.positioned b rep).judgeTruck b).bay b).noted := by
    rw [htake, Part.checkScale_noted, (Part.derive_reacts _ b).noted]
  refine ⟨fun hm => ?_, fun id hid hsome hne => ?_, fun hpend hin hstable => ?_⟩
  · rw [hnoted]
    exact Part.judgeTruck_of_matched hp2 ((BayRecord.matched_iff hlast pl2).2 (by rw [htruck]; exact hm))
  · rw [hnoted]
    refine Part.judgeTruck_of_other hp2 (Bool.eq_false_iff.2 fun hm => ?_) (by rw [hlast]; exact hid)
    rcases (BayRecord.matched_iff hlast pl2).1 hm with hno | heq
    · rw [htruck] at hno
      rw [hno] at hsome
      exact absurd hsome (by decide)
    · rw [htruck, hid] at heq
      exact hne heq
  · obtain ⟨noted, hjudge⟩ := (p.positioned b rep).judgeTruck_bay b
    have hderive := Part.derive_reacts ((p.positioned b rep).judgeTruck b) b
    have hplan := hderive.plan b
    rw [hjudge, hp2, Option.map_some, hpl2, Option.map_eq_some_iff] at hplan
    obtain ⟨pl3, hp3, hpl3⟩ := hplan
    obtain ⟨-, hscale3, hfront, hrear⟩ := Plan.of_bare_eq hpl3
    have hpend3 : pl3.scalePending = true := hscale3.trans hpend
    have hscale := Part.checkScale_bay hp3 (rep := rep) (by
      rw [Plan.scaleDue, hpend3, h, hin, hstable]
      rfl)
    have hentry : (((p.positioned b rep).judgeTruck b).derive b).bayEntry b = p.bayEntry b := by
      rw [hderive.bayEntry, Part.bayEntry, ((p.positioned b rep).judgeTruck_keeps (S := Scope.wide) b).bayEntries,
        (p.positioned_reacts b rep).entries]
      obtain ⟨l, ns, lost, hform⟩ := p.reported_form b rep
      rw [hform]
      rfl
    rw [hderive.discrepancy, hjudge, hfront, hrear, hentry] at hscale
    rw [htake, ← hdisc]
    exact hscale

/-- Settles O19. -/
theorem bayReportIsTaken : Obligations.BayReportIsTaken := by
  unfold Obligations.BayReportIsTaken
  intro s b f rep sc hrep hq hconf hread hscan hb htaken
  subst hb
  let p : Part := { s.part.dropCrane with bays := { s.part.dropCrane.bays with scan := some { sc with taken := true } } }
  have hreport : s.part.dropCrane.bayReport sc.bay f.payload = p.takeReport sc.bay rep := by
    have hc : (s.part.dropCrane.bayEntry sc.bay).configured = true := hconf
    have hr : readBayReport f.payload s.part.dropCrane.now = some rep := hread
    have hs : s.part.dropCrane.bays.scan = some sc := hscan
    simp only [Part.bayReport, hc, hr, hs, htaken, Bool.not_true, Bool.false_eq_true, if_false, and_self, if_true]
    rfl
  have hkeeps : s.part.Keeps ⟨fun _ => False, False, True, False⟩ (s.part.dropCrane.bayReport sc.bay f.payload) :=
    s.part.dropCrane_keeps.trans (Part.bayReport_keeps _ sc.bay _ trivial)
  have hrecords := hkeeps.records.resolve_left id
  have htables := hkeeps.sameTables
  rw [hreport] at hrecords htables
  have htail := p.takeReport_tail_keeps sc.bay rep
  have hbay : ∀ d, p.bay d = s.part.bay d := fun _ => rfl
  have hentry : p.bayEntry sc.bay = s.part.bayEntry sc.bay := rfl
  have hpolls : ((p.takeReport sc.bay rep).bay sc.bay).pollFacts =
      (false, 0, (s.part.bay sc.bay).totalMisses, (s.part.bay sc.bay).malformed, (s.part.bay sc.bay).late, some rep) := by
    rw [htail.pollFacts_eq, p.reported_bay, hbay]
    rfl
  have hothers : ∀ d, d ≠ sc.bay → ((p.takeReport sc.bay rep).bay d).pollFacts = (s.part.bay d).pollFacts := fun d hd => by
    rw [htail.pollFacts_eq, p.reported_bay_ne rep hd, hbay]
  have hscan' : (p.takeReport sc.bay rep).bays.scan = some { sc with taken := true } := by
    obtain ⟨l, ns, lost, hform⟩ := p.reported_form sc.bay rep
    rw [htail.scan_eq, hform]
    rfl
  have hleft : rep.inPosition = false → ∀ d : Fin 4, (s.part.entry d).configured = true → s.part.boundFor d sc.bay = true →
      ((p.takeReport sc.bay rep).latch d).causes.truckLeft = true := fun hpos d hd hbound =>
    Part.takeReport_truckLeft hpos hd hbound
  have hgone := fun h : rep.present = false => Part.takeReport_absent (p := p) (b := sc.bay) h
  have hhere : ∀ pl, (s.part.bay sc.bay).plan = some pl → rep.present = true → _ := fun pl hpl h =>
    Part.takeReport_present (p := p) (b := sc.bay) (pl := pl) hpl h
  have hstate := p.takeReport_state sc.bay rep
  obtain ⟨t, hnext, hpending, hpart⟩ := State.exists_next (exec_bayReport_of_report hrep hq hreport)
  refine ⟨t, hnext, hpending, ?_⟩
  rw [hpart]
  exact ⟨hpolls, hothers, hscan', hstate, hrecords, htables, hleft, hgone, hhere⟩

end Sys2Proof.Machine
end

section
/-! What the claims, the forwarding and the grants leave standing, proved once for every relation that the steps they are made of keep:
the stop latches, and the bays but for the states of their placements. -/

namespace Sys2Proof.Machine

/-- A relation that every step of a claim, of a forwarding and of a grant keeps: the arbiter, the gate's books and the queues, the
binding of a hook and its reverts. -/
structure GateKeeps (R : Part → Part → Prop) : Prop where
  refl : ∀ p, R p p
  trans : ∀ {p q r}, R p q → R q r → R p r
  arbiter : ∀ (p : Part) (a : Arbiter), R p { p with arbiter := a }
  books : ∀ (p : Part) (l : Link) (os : Vector (Option Order) 4) (turn : List (Fin 4)) (vs : List Verdict) (ns : List Notice)
    (lost : Nat), R p { p with
      link := l, gate := { p.gate with orders := os, pendingTurn := turn, verdicts := vs }
      mgmt := { p.mgmt with notices := ns, lost := lost } }
  bindSource : ∀ (p : Part) (c : Fin 4) (o : Order), R p (p.bindSource c o)
  bindDest : ∀ (p : Part) (c : Fin 4) (o : Order), R p (p.bindDest c o)
  clearSource : ∀ (p : Part) (c : Fin 4), R p (p.clearSource c)
  clearDest : ∀ (p : Part) (c : Fin 4), R p (p.clearDest c)

section
variable {R : Part → Part → Prop} (k : GateKeeps R) (p : Part) (c : Fin 4)

theorem Part.related_ite {t : Prop} [Decidable t] {q r : Part} (h : R p q) (h' : R p r) : R p (if t then q else r) := by
  split
  · exact h
  · exact h'

include k

theorem GateKeeps.onLink (f : Link → Link) : R p (p.onLink f) :=
  k.books p (f p.link) p.gate.orders p.gate.pendingTurn p.gate.verdicts p.mgmt.notices p.mgmt.lost

theorem GateKeeps.setOrder (o : Option Order) : R p (p.setOrder c o) :=
  k.books p p.link (p.gate.orders.set c o) p.gate.pendingTurn p.gate.verdicts p.mgmt.notices p.mgmt.lost

theorem GateKeeps.dropTurn : R p (p.dropTurn c) := k.books p p.link p.gate.orders _ p.gate.verdicts p.mgmt.notices p.mgmt.lost

theorem GateKeeps.notify (kind : NoticeKind) (a v1 v2 v3 : Nat) : R p (p.notify kind a v1 v2 v3) := by
  obtain ⟨l, ns, n, h⟩ := p.notify_form kind a v1 v2 v3
  rw [h]
  exact k.books p l p.gate.orders p.gate.pendingTurn p.gate.verdicts ns n

theorem GateKeeps.orderVerdict (o : Order) (kind : VerdictKind) (why : Option Reason) : R p (p.orderVerdict c o kind why) := by
  obtain ⟨l, vs, h⟩ := p.giveVerdict_form ⟨c, o.tag, kind, why, o.target.x, o.permitted⟩
  have hverdict : p.orderVerdict c o kind why = _ := h
  rw [hverdict]
  exact k.books p l p.gate.orders p.gate.pendingTurn vs p.mgmt.notices p.mgmt.lost

theorem GateKeeps.setZone (j : Nat) (z : Zone) : R p (p.setZone j z) := by
  unfold Part.setZone
  split
  · exact k.arbiter p _
  · exact k.refl p

theorem GateKeeps.give (j : Nat) : R p (p.give c j) := k.trans (k.setZone p j _) (k.arbiter _ _)

theorem GateKeeps.withdrawClaim : R p (p.withdrawClaim c) := by
  unfold Part.withdrawClaim
  split
  · exact k.refl p
  · exact k.trans (k.setZone p _ _) (k.arbiter _ _)

theorem GateKeeps.joinClaim (j : Nat) (cls : ClaimClass) : R p (p.joinClaim c j cls) :=
  k.trans (k.setZone p j _) (k.arbiter _ _)

/-! ## The end of an order (R64) -/

theorem GateKeeps.endOrder (complete : Bool) (v : Option (VerdictKind × Option Reason)) : R p (p.endOrder c complete v) := by
  unfold Part.endOrder
  split
  · exact k.refl p
  next o _ =>
    have hout := k.trans (k.setOrder p c (some { o with state := .ended, pending := none }))
      (k.trans (k.dropTurn _ c) (k.trans (k.withdrawClaim _ c) (k.onLink _ (Link.removeCommands c))))
    have hsource : ∀ q : Part, R p q → R p (if (q.hook c).state == .empty then q.clearSource c else q) :=
      fun q hq => p.related_ite (k.trans hq (k.clearSource q c)) hq
    have hdest : ∀ q : Part, R p q → R p (if o.setDest && !complete then q.clearDest c else q) :=
      fun q hq => p.related_ite (k.trans hq (k.clearDest q c)) hq
    cases v with
    | none => exact hdest _ (hsource _ hout)
    | some v => exact k.trans (hdest _ (hsource _ hout)) (k.orderVerdict _ c _ _ _)

/-! ## Forwarding (R61, R62) -/

theorem GateKeeps.sendCommand (o : Order) (cmd : Command) : R p (p.sendCommand c o cmd) := by
  have hsent := k.trans (k.onLink p (Link.pushNormal (.command c) (craneStation c) cmd.verb.kind
      (commandPayload o.tag cmd (p.travelSpeed c cmd.x o.speed))))
    (k.setOrder _ c (some { o with lastSeq := some p.link.seq, lastDone := false, pending := none }))
  exact p.related_ite (k.trans hsent (k.orderVerdict _ c _ _ _)) hsent

theorem GateKeeps.forwardAt (o : Order) (cmd : Command) {bind : Part → Part} (hb : ∀ q : Part, R q (bind q)) :
    R p (p.forwardAt c o cmd bind) := by
  have hclear := k.clearDest p c
  unfold Part.forwardAt
  simp only []
  split
  · exact k.trans hclear (k.endOrder _ c _ _)
  · have hbind := k.trans hclear (hb (p.clearDest c))
    split
    · exact k.trans hbind (k.endOrder _ c _ _)
    · exact k.trans hbind (k.sendCommand _ c o cmd)

theorem GateKeeps.forwardCommand (cmd : Command) : R p (p.forwardCommand c cmd) := by
  unfold Part.forwardCommand
  split
  · exact k.refl p
  next o _ =>
    simp only []
    refine k.trans (k.setOrder p c (some { o with pending := none })) ?_
    split
    · exact k.sendCommand _ c _ cmd
    · exact k.forwardAt _ c _ cmd fun q => k.bindSource q c _
    · exact k.forwardAt _ c _ cmd fun q => k.bindDest q c _

theorem GateKeeps.prepare (cmd : Command) : R p (p.prepare c cmd) := by
  unfold Part.prepare
  split
  · exact k.trans (k.dropTurn p c) (k.forwardCommand _ c cmd)
  · split
    · exact k.refl p
    next o _ =>
      exact k.books p p.link (p.gate.orders.set c (some { o with pending := some cmd })) _ p.gate.verdicts p.mgmt.notices
        p.mgmt.lost

/-! ## Claims (R28, R36 to R39) -/

theorem GateKeeps.giveWay (other : Fin 4) (zone : Nat) : R p (p.giveWay c other zone) := by
  have hsent : ∀ q : Part, R p q → ∀ f a v1 v2 v3, R p ((q.onLink f).notify .giveWay a v1 v2 v3) :=
    fun q hq f a v1 v2 v3 => k.trans hq (k.trans (k.onLink q f) (k.notify _ _ _ _ _ _))
  unfold Part.giveWay
  simp only []
  refine p.related_ite (k.refl p) ?_
  cases p.giveWayZones c other (p.giveWayTarget c other zone) with
  | none => exact k.refl p
  | some further =>
    cases further with
    | none => exact p.related_ite (k.refl p) (hsent p (k.refl p) _ _ _ _ _)
    | some j => exact p.related_ite (k.refl p) (hsent _ (k.give p c j) _ _ _ _ _)

theorem GateKeeps.resolveFacing (j y : Fin 4) (contested : Nat) : R p (p.resolveFacing c j y contested) :=
  k.trans (k.withdrawClaim p y) (k.trans (k.endOrder _ y false (some (.yielded, none)))
    (k.trans (k.notify _ _ _ _ _ _) (k.giveWay _ y _ contested)))

theorem GateKeeps.afterJoin (j : Nat) (cls : ClaimClass) : R p (p.afterJoin c j cls).1 := by
  unfold Part.afterJoin
  split
  · exact k.refl p
  · split
    · exact k.refl p
    · split
      · exact k.resolveFacing p c _ _ _
      · exact k.resolveFacing p c _ _ _

theorem GateKeeps.claimRequest (d : Direction) (cls : ClaimClass) : R p (p.claimRequest c d cls).1 := by
  have hout := k.withdrawClaim p c
  unfold Part.claimRequest
  simp only []
  split
  · exact k.refl p
  · split
    · exact hout
    · split
      · exact hout
      · split
        · exact hout
        · split
          · exact k.trans hout (k.give _ c _)
          · exact k.trans hout (k.trans (k.joinClaim _ c _ cls) (k.afterJoin _ c _ cls))

/-! ## The zone step (R58 to R60) -/

theorem GateKeeps.claimToward (n : Nat) (p : Part) (d : Direction) (cls : ClaimClass) (bound : Nat) :
    R p (Part.claimToward n p c d cls bound).1 := by
  induction n generalizing p with
  | zero => exact k.refl p
  | succ n ih =>
    unfold Part.claimToward
    split
    · exact k.refl p
    · have h := k.claimRequest p c d cls
      generalize p.claimRequest c d cls = r at h
      obtain ⟨q, a⟩ := r
      cases a with
      | granted => exact k.trans h (ih q)
      | _ => exact h

theorem GateKeeps.claiming (o : Order) : R p (p.claiming c o).1 := by
  have hthen : ∀ d1 d2 b1 b2, R p (match p.claimToward 33 c d1 o.cls b1 with
      | (p, .done) => p.claimToward 33 c d2 o.cls b2
      | r => r).1 := by
    intro d1 d2 b1 b2
    have h := k.claimToward c 33 p d1 o.cls b1
    generalize p.claimToward 33 c d1 o.cls b1 = r at h
    obtain ⟨q, e⟩ := r
    cases e with
    | done => exact k.trans h (k.claimToward c 33 q d2 o.cls b2)
    | _ => exact h
  unfold Part.claiming
  by_cases hx : o.target.x < p.craneX c
  · simp only [if_pos hx]
    exact hthen _ _ _ _
  · simp only [if_neg hx]
    exact hthen _ _ _ _

theorem GateKeeps.noProgress (o : Order) (opening : Bool) (refusal : Option Reason) : R p (p.noProgress c o opening refusal) := by
  have hset := fun o' => k.setOrder p c (some o')
  unfold Part.noProgress
  simp only []
  split
  · exact p.related_ite (k.trans (hset _) (k.orderVerdict _ c _ _ _)) (hset _)
  · split
    · have hverdict := fun o' o'' why => k.trans (hset o') (k.orderVerdict (p.setOrder c (some o')) c o'' .clamped why)
      exact p.related_ite (k.trans (hverdict _ _ _) (k.endOrder _ c _ _)) (hverdict _ _ _)
    · exact k.trans (hset _) (k.endOrder _ c _ _)

theorem GateKeeps.afterClaims (opening : Bool) (refusal : Option Reason) : R p (p.afterClaims c opening refusal) := by
  have hset : ∀ (o : Order) (cmd : Command), R p ((p.setOrder c (some o)).prepare c cmd) := fun o cmd =>
    k.trans (k.setOrder p c (some o)) (k.prepare _ c cmd)
  unfold Part.afterClaims
  split
  · exact k.refl p
  · split
    · exact hset _ _
    · split
      · exact k.noProgress p c _ _ _
      · split
        · simp only []
          split
          · exact k.trans (hset _ _) (k.orderVerdict _ c _ _ _)
          · split
            · exact k.trans (hset _ _) (k.orderVerdict _ c _ _ _)
            · exact hset _ _
        · exact k.noProgress p c _ _ _

theorem GateKeeps.zoneStep (opening : Bool) : R p (p.zoneStep c opening) := by
  unfold Part.zoneStep
  split
  · exact k.refl p
  next o _ =>
    have h := k.claiming p c o
    generalize p.claiming c o = r at h
    obtain ⟨q, e⟩ := r
    cases e with
    | yielded => exact h
    | _ => exact k.trans h (k.afterClaims q c _ _)

/-! ## The grant order, auto-extension and release (R30 to R35) -/

theorem GateKeeps.reportGranted : R p (p.reportGranted c) := by
  unfold Part.reportGranted
  split
  · exact p.related_ite (k.zoneStep p c false) (k.refl p)
  · exact k.refl p

theorem GateKeeps.grantOrder (n : Nat) (p : Part) (j : Nat) : R p (Part.grantOrder n p j) := by
  induction n generalizing p with
  | zero => exact k.refl p
  | succ n ih =>
    unfold Part.grantOrder
    split
    · exact k.refl p
    next w _ =>
      have hout := k.withdrawClaim p w.crane
      simp only []
      split
      · exact k.trans hout (k.trans (k.give _ w.crane j) (k.reportGranted _ w.crane))
      · exact k.trans hout (k.trans (k.afterClaims _ w.crane _ _) (ih _))

theorem GateKeeps.handOn (j : Nat) : R p (p.handOn j) := p.related_ite (k.grantOrder _ p j) (k.refl p)

theorem GateKeeps.releaseOne (d : Direction) (r : Run) : R p (p.releaseOne c d r) :=
  k.trans (k.arbiter p _) (k.trans (k.setZone _ _ _) (k.handOn _ _))

theorem GateKeeps.releaseEnd (n : Nat) (p : Part) (d : Direction) (kept : List Nat) : R p (Part.releaseEnd n p c d kept) := by
  induction n generalizing p with
  | zero => exact k.refl p
  | succ n ih =>
    unfold Part.releaseEnd
    split
    · exact k.refl p
    next r _ =>
      have hone := k.trans (k.releaseOne p c d r) (ih (p.releaseOne c d r))
      cases d <;> exact p.related_ite (k.refl p) hone

theorem GateKeeps.release (cover : Nat × Nat) : R p (p.release c cover) := by
  unfold Part.release
  split
  · exact k.refl p
  · exact k.trans (k.releaseEnd c 32 p _ _) (k.releaseEnd c 32 _ _ _)

/-- The auto-extension, where a stop of the crane with INTRUSION keeps the relation too (R31, R32). -/
theorem GateKeeps.autoExtend (hstop : ∀ q, R p q → R q (q.requestStop c .intrusion none)) (n : Nat) (d : Direction)
    (bound : Nat) (q : Part) (hq : R p q) : R p (Part.autoExtend n q c d bound) := by
  induction n generalizing q with
  | zero => exact hq
  | succ n ih =>
    unfold Part.autoExtend
    split
    · exact hq
    next r _ =>
      have hgive := fun j => ih (q.give c j) (k.trans hq (k.give q c j))
      have hstopped := k.trans hq (hstop q hq)
      cases d <;> exact p.related_ite hq (p.related_ite (hgive _) hstopped)

/-- An envelope that reaches the arbiter (R31, R33). -/
theorem GateKeeps.takeEnvelope (hstop : ∀ q, R p q → R q (q.requestStop c .intrusion none)) (cover : Option (Nat × Nat)) :
    R p (p.takeEnvelope c cover) := by
  unfold Part.takeEnvelope
  split
  · exact k.refl p
  · exact k.refl p
  next lo hi _ =>
    have heast := k.autoExtend p c hstop 33 .east hi p (k.refl p)
    have hwest := k.autoExtend p c hstop 33 .west lo _ heast
    exact k.trans hwest (k.release _ c (lo, hi))

end

/-! ## The stop latches -/

/-- The stop latches of a part stand. -/
def Part.SameLatches (p q : Part) : Prop := q.gate.latches = p.gate.latches

theorem Part.SameLatches.latch {p q : Part} (h : p.SameLatches q) (c : Fin 4) : q.latch c = p.latch c :=
  congrArg (fun ls : Vector Latch 4 => ls[c]) h

section
variable (p : Part) (c : Fin 4)

theorem Part.bindSource_gate (o : Order) : (p.bindSource c o).gate = p.gate := by
  unfold Part.bindSource
  split
  · rfl
  · split <;> rfl
  · rfl

theorem Part.bindDest_gate (o : Order) : (p.bindDest c o).gate = p.gate := by
  unfold Part.bindDest
  split
  · rfl
  · split <;> rfl
  · rfl

/-- Only a stop request, a release or a change of mode writes a latch (R66 to R69). -/
theorem gateKeeps_sameLatches : GateKeeps Part.SameLatches where
  refl _ := rfl
  trans h h' := Eq.trans h' h
  arbiter _ _ := rfl
  books _ _ _ _ _ _ _ := rfl
  bindSource p c o := congrArg Gate.latches (p.bindSource_gate c o)
  bindDest p c o := congrArg Gate.latches (p.bindDest_gate c o)
  clearSource p c := congrArg Gate.latches (p.clearSource_gate c)
  clearDest p c := congrArg Gate.latches (p.clearDest_gate c)

theorem CauseSet.put_self {s : CauseSet} {x : StopCause} {on : Bool} (h : s.has x = on) : s.put x on = s := by
  subst h
  cases x <;> rfl

theorem Part.setLatch_self : p.setLatch c (p.latch c) = p :=
  congrArg (fun ls => { p with gate := { p.gate with latches := ls } }) (Vector.set_getElem_self c.isLt)

/-- A second INTRUSION changes nothing (R66). -/
theorem Part.requestStop_intrusion_of_held (h : (p.latch c).causes.intrusion = true) :
    p.requestStop c .intrusion none = p := by
  cases hc : (p.entry c).configured with
  | false => exact p.requestStop_of_unconfigured c _ _ hc
  | true => exact (p.requestStop_of_held c .intrusion none hc h).trans (p.setLatch_self c)

/-- A fresh envelope writes no latch of a crane that holds INTRUSION already (R31, R33). -/
theorem Part.requestEnvelope_sameLatches (h : (p.latch c).causes.intrusion = true) : p.SameLatches (p.requestEnvelope c) := by
  have hstop : ∀ (q : Part), (q.latch c).causes.intrusion = true → ∀ r, q.SameLatches r →
      r.SameLatches (r.requestStop c .intrusion none) := by
    intro q hq r hr
    rw [r.requestStop_intrusion_of_held c (by rw [hr.latch]; exact hq)]
    exact gateKeeps_sameLatches.refl r
  have hset : ∀ r, p.SameLatches (p.setRecord c r) := fun _ => rfl
  unfold Part.requestEnvelope
  split
  · unfold Part.computeEnvelope
    split
    · exact gateKeeps_sameLatches.refl p
    next t _ =>
      refine gateKeeps_sameLatches.trans (hset _) (gateKeeps_sameLatches.takeEnvelope _ c (fun q hq => hstop _ ?_ q hq) _)
      exact h
  · exact gateKeeps_sameLatches.refl p

end

/-! ## The bays -/

theorem Part.bindSource_sameBays (p : Part) (c : Fin 4) (o : Order) : p.SameBays (p.bindSource c o) := by
  unfold Part.bindSource
  split
  · exact .of_eq rfl
  · split <;> exact .of_eq rfl
  · exact .of_eq rfl

theorem Part.bindDest_sameBays (p : Part) (c : Fin 4) (o : Order) : p.SameBays (p.bindDest c o) := by
  unfold Part.bindDest
  split
  · exact .of_eq rfl
  · split
    next b _ => exact (p.onPlan_sameBays b fun pl => pl.setPlacement_bare _ (.incoming c)).trans (.of_eq rfl)
    · exact .of_eq rfl
  · exact .of_eq rfl

/-- Of the bays they write the states of placements only (R152). -/
theorem gateKeeps_sameBays : GateKeeps Part.SameBays where
  refl _ := .of_eq rfl
  trans h h' := h.trans h'
  arbiter _ _ := .of_eq rfl
  books _ _ _ _ _ _ _ := .of_eq rfl
  bindSource p c o := p.bindSource_sameBays c o
  bindDest p c o := p.bindDest_sameBays c o
  clearSource p c := (p.clearSource_endsOnly c).bays
  clearDest p c := (p.clearDest_endsOnly c).bays

end Sys2Proof.Machine
end

section
/-! O53. What a STOP_RELEASE removes from a latch (R68). -/

namespace Sys2Proof.Machine

/-- A latch once one cause has been judged, `ok` telling that it no longer holds (R68). -/
def Latch.judged (l : Latch) (x : StopCause) (ok : Bool) : Latch :=
  ⟨l.causes.put x (l.causes.has x && !ok), if x = .bayDriver ∧ l.causes.has x = true ∧ ok = true then BaySet.none else l.bays⟩

theorem Latch.judged_of_absent {l : Latch} {x : StopCause} (h : l.causes.has x = false) (ok : Bool) : l.judged x ok = l := by
  simp only [Latch.judged, h, Bool.false_and, Bool.false_eq_true, false_and, and_false, if_false, CauseSet.put_self h]

theorem Latch.judged_of_held {l : Latch} {x : StopCause} (h : l.causes.has x = true) : l.judged x false = l := by
  simp only [Latch.judged, Bool.false_eq_true, and_false, if_false, h, Bool.not_false, Bool.and_true, CauseSet.put_self h]

theorem Latch.judged_of_settled {l : Latch} {x : StopCause} (h : l.causes.has x = true) :
    l.judged x true = ⟨l.causes.put x false, if x = .bayDriver then BaySet.none else l.bays⟩ := by
  simp only [Latch.judged, h, and_true, Bool.not_true, Bool.and_false]

/-- The causes from INTRUSION on, judged in their order (R68). -/
theorem Latch.judged_rest (l : Latch) (within cab safe : Bool) :
    ((((l.judged .intrusion within).judged .cabArea cab).judged .bayDriver safe).judged .truckLeft true).judged .startup false =
      ⟨{ l.causes with
          intrusion := l.causes.intrusion && !within
          cabArea := l.causes.cabArea && !cab
          bayDriver := l.causes.bayDriver && !safe
          truckLeft := false },
        if l.causes.bayDriver && safe then BaySet.none else l.bays⟩ := by
  simp [Latch.judged, CauseSet.put, CauseSet.has]

theorem Part.setLatch_setLatch (p : Part) (c : Fin 4) (l m : Latch) : (p.setLatch c l).setLatch c m = p.setLatch c m :=
  congrArg (fun ls => { p with gate := { p.gate with latches := ls } }) (Vector.set_set ..)

/-- The removal of a cause that no longer holds, and its staying otherwise. -/
theorem Part.drop_of_held {p : Part} {c : Fin 4} {x : StopCause} (h : (p.latch c).causes.has x = true) :
    (if p.releasable c x then p.dropCause c x else p) = p.setLatch c ((p.latch c).judged x (p.releasable c x)) := by
  cases p.releasable c x with
  | false => rw [Latch.judged_of_held h, Part.setLatch_self]; rfl
  | true => rw [Latch.judged_of_settled h]; rfl

/-- A cause that needs no fresh envelope (R68). -/
theorem Part.releaseCause_eq {p : Part} {c : Fin 4} {x : StopCause} (hx : x ≠ .intrusion) :
    p.releaseCause c x = p.setLatch c ((p.latch c).judged x (p.releasable c x)) := by
  unfold Part.releaseCause
  simp only [if_neg hx]
  cases h : (p.latch c).causes.has x with
  | false => rw [Latch.judged_of_absent h, Part.setLatch_self]; rfl
  | true => exact Part.drop_of_held h

/-- INTRUSION is judged after its fresh envelope (R68). -/
theorem Part.releaseCause_intrusion (p : Part) (c : Fin 4) :
    let q := if (p.latch c).causes.intrusion then p.requestEnvelope c else p
    p.releaseCause c .intrusion = q.setLatch c ((p.latch c).judged .intrusion (q.withinGrant c)) := by
  unfold Part.releaseCause
  cases h : (p.latch c).causes.intrusion with
  | false =>
    have hhas : (p.latch c).causes.has .intrusion = false := h
    simp only [hhas, Bool.false_eq_true, if_false, Latch.judged_of_absent hhas, Part.setLatch_self]
  | true =>
    have hhas : (p.latch c).causes.has .intrusion = true := h
    have hlatch : (p.requestEnvelope c).latch c = p.latch c := (p.requestEnvelope_sameLatches c h).latch c
    simp only [hhas, if_true]
    rw [Part.drop_of_held (by rw [hlatch]; exact hhas), hlatch]
    rfl

/-- The latch that is left when every cause has been judged, in the order of R68. -/
theorem Part.releaseCauses_eq (p : Part) (c : Fin 4) :
    let l := p.latch c
    let first := (l.judged .stale (p.releasable c .stale)).judged .ordering (p.inOrder c)
    let judged := p.setLatch c first
    let q := if l.causes.intrusion then judged.requestEnvelope c else judged
    causeList.foldl (fun p x => p.releaseCause c x) p =
      q.setLatch c (((((first.judged .intrusion (q.withinGrant c)).judged .cabArea
        (!(q.hook c).loaded || !q.inCabArea (q.craneX c) (q.craneY c))).judged .bayDriver (q.baysSafe l.bays)).judged
        .truckLeft true).judged .startup false) := by
  intro l first judged q
  have hset : ∀ (r : Part) (m : Latch) (x : StopCause) (ok : Bool), x ≠ .intrusion → (r.setLatch c m).releasable c x = ok →
      (r.setLatch c m).releaseCause c x = r.setLatch c (m.judged x ok) := by
    intro r m x ok hx hok
    rw [Part.releaseCause_eq hx, Part.setLatch_latch, Part.setLatch_setLatch, hok]
  have hjudged : (p.releaseCause c .stale).releaseCause c .ordering = judged := by
    rw [Part.releaseCause_eq (x := .stale) (by decide)]
    exact hset p _ .ordering (p.inOrder c) (by decide) rfl
  have hlatch : judged.latch c = first := Part.setLatch_latch ..
  have hintrusion : judged.releaseCause c .intrusion = q.setLatch c (first.judged .intrusion (q.withinGrant c)) := by
    have h := judged.releaseCause_intrusion c
    rw [hlatch] at h
    exact h
  have hbays : ∀ m : Latch, m.bays = l.bays → (q.setLatch c m).releasable c .bayDriver = q.baysSafe l.bays := by
    intro m hm
    rw [Part.releasable, Part.setLatch_latch, hm]
    rfl
  simp only [causeList, List.foldl_cons, List.foldl_nil]
  have hcab := hset q (first.judged .intrusion (q.withinGrant c)) .cabArea
    (!(q.hook c).loaded || !q.inCabArea (q.craneX c) (q.craneY c)) (by decide) rfl
  have hdriver := hset q _ .bayDriver _ (by decide) (hbays ((first.judged .intrusion (q.withinGrant c)).judged .cabArea
    (!(q.hook c).loaded || !q.inCabArea (q.craneX c) (q.craneY c))) rfl)
  rw [hjudged, hintrusion, hcab, hdriver, hset q _ .truckLeft true (by decide) rfl, hset q _ .startup false (by decide) rfl]

theorem craneOf_val (c : Fin 4) : craneOf c.val = some c := dif_pos c.isLt

theorem Part.withinGrant_eq (p : Part) (c : Fin 4) :
    p.withinGrant c = (p.run c).any fun g => ((p.record c).envelope.bind Envelope.cover).any fun v =>
      decide (g.lo ≤ v.1) && decide (v.2 ≤ g.hi) := by
  unfold Part.withinGrant
  cases p.run c with
  | none => rfl
  | some g => cases (p.record c).envelope.bind Envelope.cover with
    | none => rfl
    | some v => rfl

theorem Part.baysSafe_congr {p q : Part} (he : q.bays.entries = p.bays.entries) (hd : q.lines.driver = p.lines.driver)
    (bs : BaySet) : q.baysSafe bs = p.baysSafe bs := by
  unfold Part.baysSafe Part.bayEntry Part.driverSafe
  rw [he, hd]

theorem CauseSet.flags_of_none {s : CauseSet} (h : s.any = false) : s.flags = 0 := by
  simp only [CauseSet.any, Bool.or_eq_false_iff] at h
  obtain ⟨⟨⟨⟨⟨⟨h1, h2⟩, h3⟩, h4⟩, h5⟩, h6⟩, h7⟩ := h
  simp only [CauseSet.flags, h1, h2, h3, h4, h5, h6, h7, bit, Bool.false_eq_true, if_false]

/-- Settles O53. -/
theorem stopReleaseRemovesSettledCauses : Obligations.StopReleaseRemovesSettledCauses := by
  unfold Obligations.StopReleaseRemovesSettledCauses
  intro s f c hreq hq hread hconf l first judged q within left bays p
  have hserve : causeList.foldl (fun p x => p.releaseCause c x) s.part.dropSup =
      q.setLatch c ((((((⟨first, l.bays⟩ : Latch).judged .intrusion (q.withinGrant c)).judged .cabArea
        (!(q.hook c).loaded || !q.inCabArea (q.craneX c) (q.craneY c))).judged .bayDriver (q.baysSafe l.bays)).judged
        .truckLeft true).judged .startup false) := s.part.dropSup.releaseCauses_eq c
  have hconf' : (s.part.dropSup.entry c).configured = true := hconf
  rw [exec_stopRelease]
  refine State.act_eq hreq.1 ?_
  rw [served_of_request hreq rfl rfl (by simp [formFits, hread])]
  simp only [dropSup_await hq, serveStopRelease, hread, craneOf_val, Option.filter_some, hconf', if_true]
  have hkeeps : judged.Keeps ⟨fun _ => False, True, False, False⟩ q :=
    Part.keeps_ite _ (fun _ => judged.requestEnvelope_keeps c trivial) fun _ => .refl judged
  have hsafe : q.baysSafe l.bays = bayList.all fun b =>
      !l.bays[b] || !(s.part.bayEntry b).configured || s.part.lines.driver[b].accepted == .active :=
    Part.baysSafe_congr (p := s.part) hkeeps.bayEntries (hkeeps.inputs.resolve_left id).1 l.bays
  have hwithin : q.withinGrant c = within := q.withinGrant_eq c
  have hfold : causeList.foldl (fun p x => p.releaseCause c x) s.part.dropSup = p := by
    have hcab : (!(!(q.hook c).loaded || !q.inCabArea (q.craneX c) (q.craneY c))) =
        ((q.hook c).loaded && q.inCabArea (q.craneX c) (q.craneY c)) := by
      simp only [Bool.not_or, Bool.not_not]
    have hbays : (l.causes.bayDriver && q.baysSafe l.bays) = (l.causes.bayDriver && !left.bayDriver) := by
      rw [hsafe]
      change _ = (l.causes.bayDriver && !(l.causes.bayDriver && !_))
      cases l.causes.bayDriver <;> simp
    rw [hserve, Latch.judged_rest, hwithin, hcab, hbays, hsafe]
  have hlatch : p.latch c = ⟨left, bays⟩ := Part.setLatch_latch ..
  rw [Part.releaseStop, hfold, hlatch]
  change (Part.ok (if left.any = true then p else p.latchCleared c 1) f _) = _
  cases hany : left.any with
  | true =>
    simp only [if_true, hlatch]
    rfl
  | false =>
    have hcleared : (p.latchCleared c 1).latch c = ⟨left, bays⟩ := by
      have hgate : (p.latchCleared c 1).gate = p.gate := Part.notify_gate ..
      exact (congrArg (fun g : Gate => g.latches[c]) hgate).trans hlatch
    simp only [Bool.false_eq_true, if_false, hcleared]
    rw [CauseSet.flags_of_none hany]
    rfl

end Sys2Proof.Machine
end

section
/-! O54. The MODE frames: the entry into RUN and into MAINTENANCE (R187 to R190). -/

namespace Sys2Proof.Machine

/-! ## What stays in NORMAL -/

/-- No entry joins NORMAL. -/
def Part.NoneJoins (p q : Part) : Prop := ∀ e ∈ q.link.normal, e ∈ p.link.normal

section
variable {p q r : Part}

theorem Part.NoneJoins.refl (p : Part) : p.NoneJoins p := fun _ h => h

theorem Part.NoneJoins.trans (h : p.NoneJoins q) (k : q.NoneJoins r) : p.NoneJoins r := fun e he => h e (k e he)

theorem Part.NoneJoins.of_link (h : q.link = p.link) : p.NoneJoins q := fun _ he => h ▸ he

theorem Part.NoneJoins.ite {t : Prop} [Decidable t] (h : p.NoneJoins q) (k : p.NoneJoins r) :
    p.NoneJoins (if t then q else r) := by
  split
  · exact h
  · exact k

end

theorem Link.startCrane_normal (l : Link) : ∀ e ∈ (Link.startCrane l).normal, e ∈ l.normal := by
  intro e he
  unfold Link.startCrane at he
  split at he
  · exact he
  · split at he
    · exact he
    · split at he
      next first rest hnormal =>
        rw [hnormal]
        exact List.mem_cons_of_mem _ he
      · exact he

theorem Link.putHalt_normal (c : Fin 4) (tag : Nat) (l : Link) : ∀ e ∈ (l.putHalt c tag).normal, e ∈ l.normal := by
  unfold Link.putHalt
  split
  · exact fun _ he => he
  · exact Link.startCrane_normal _

section
variable (p : Part)

theorem Part.notify_noneJoins (k : NoticeKind) (a v1 v2 v3 : Nat) : p.NoneJoins (p.notify k a v1 v2 v3) := by
  unfold Part.notify
  simp only []
  split
  · intro e he
    rw [Part.onLink, Link.pushReply, Link.startSupervisor_normal] at he
    exact he
  · split <;> exact .refl p

theorem Part.verdict_noneJoins (d : Fin 4) (tag : Nat) (k : VerdictKind) (why : Option Reason) (x y : Nat) :
    p.NoneJoins (p.verdict d tag k why x y) := by
  unfold Part.verdict Part.giveVerdict
  split
  · intro e he
    rw [Part.onLink, Link.pushReply, Link.startSupervisor_normal] at he
    exact he
  · exact .refl p

theorem Part.answerFrame_noneJoins (f : Frame) (a : Answer) (why : Option Reason) (data : List Byte) :
    p.NoneJoins (p.answerFrame f a why data) := by
  unfold Part.answerFrame Part.giveReply
  split
  · intro e he
    rw [Part.onLink, Link.pushReply, Link.startSupervisor_normal] at he
    exact he
  · exact .refl p

theorem Part.clearSource_noneJoins (c : Fin 4) : p.NoneJoins (p.clearSource c) := by
  unfold Part.clearSource
  split
  · exact .refl p
  · simp only []
    split <;> exact .refl p

theorem Part.clearDest_noneJoins (c : Fin 4) : p.NoneJoins (p.clearDest c) := by
  unfold Part.clearDest
  split
  · exact .refl p
  · simp only []
    split
    · unfold Part.revertSlotDest
      simp only []
      split
      · exact Part.notify_noneJoins _ _ _ _ _ _
      · exact .refl p
    · unfold Part.revertPlacement
      exact .ite (.refl p) (.refl p)

theorem Part.withdrawClaim_link (c : Fin 4) : (p.withdrawClaim c).link = p.link := by
  unfold Part.withdrawClaim
  split
  · rfl
  · simp only [Part.setClaim, Part.setZone_link]

/-- The end of an order queues no command (R64). -/
theorem Part.endOrder_noneJoins (c : Fin 4) (complete : Bool) (v : Option (VerdictKind × Option Reason)) :
    p.NoneJoins (p.endOrder c complete v) := by
  unfold Part.endOrder
  split
  · exact .refl p
  next o _ =>
    have hout : p.NoneJoins ((((p.setOrder c (some { o with state := .ended, pending := none })).dropTurn c).withdrawClaim
        c).onLink (Link.removeCommands c)) := by
      intro e he
      have hmem := List.mem_of_mem_filter he
      rw [Part.withdrawClaim_link] at hmem
      exact hmem
    have hsource : ∀ q : Part, p.NoneJoins q → p.NoneJoins (if (q.hook c).state == .empty then q.clearSource c else q) :=
      fun q hq => .ite (hq.trans (q.clearSource_noneJoins c)) hq
    have hdest : ∀ q : Part, p.NoneJoins q → p.NoneJoins (if o.setDest && !complete then q.clearDest c else q) :=
      fun q hq => .ite (hq.trans (q.clearDest_noneJoins c)) hq
    cases v with
    | none => exact hdest _ (hsource _ hout)
    | some v => exact (hdest _ (hsource _ hout)).trans (Part.verdict_noneJoins _ c _ _ _ _ _)

/-! ## One crane at the entry into MAINTENANCE (R190) -/

theorem Part.maintainCrane_endsOnly (c : Fin 4) :
    p.EndsOnly c (p.maintainCrane c) ∧ (p.maintainCrane c).activeOrder c = none := by
  have hend := (p.endOrder_endsOnly c false (some (.aborted, none))).trans (Part.onLink_endsOnly _ c (Link.removeCommands c))
  have hnone := p.endOrder_activeOrder c false (some (.aborted, none))
  unfold Part.maintainCrane
  simp only []
  split
  · exact ⟨hend.trans (Part.onLink_endsOnly _ c _), hnone⟩
  · exact ⟨hend, hnone⟩

theorem Part.maintainCrane_normal (c : Fin 4) :
    p.NoneJoins (p.maintainCrane c) ∧ ∀ e ∈ (p.maintainCrane c).link.normal, e.sort.commands c = false := by
  have hend := p.endOrder_noneJoins c false (some (.aborted, none))
  have hout : ∀ e ∈ (((p.endOrder c false (some (.aborted, none))).onLink (Link.removeCommands c))).link.normal,
      e ∈ (p.endOrder c false (some (.aborted, none))).link.normal ∧ e.sort.commands c = false := by
    intro e he
    obtain ⟨hmem, hnot⟩ := List.mem_filter.1 he
    exact ⟨hmem, by simpa using hnot⟩
  have hin : ∀ e ∈ (p.maintainCrane c).link.normal,
      e ∈ (((p.endOrder c false (some (.aborted, none))).onLink (Link.removeCommands c))).link.normal := by
    unfold Part.maintainCrane
    simp only []
    split
    · exact Link.putHalt_normal c _ _
    · exact fun _ he => he
  exact ⟨fun e he => hend e (hout e (hin e he)).1, fun e he => (hout e (hin e he)).2⟩

/-- Where one crane after another is left without commands in NORMAL, none of them has any. -/
theorem Part.foldl_withoutCommands {f : Part → Fin 4 → Part}
    (hf : ∀ p c, p.NoneJoins (f p c) ∧ ∀ e ∈ (f p c).link.normal, e.sort.commands c = false) (cs : List (Fin 4)) (p : Part) :
    ∀ c ∈ cs, ∀ e ∈ (cs.foldl f p).link.normal, e.sort.commands c = false := by
  induction cs using List.reverseRecOn with
  | nil => exact fun _ h => absurd h List.not_mem_nil
  | append_singleton cs d ih =>
    intro c hc e he
    rw [List.foldl_append, List.foldl_cons, List.foldl_nil] at he
    obtain ⟨hjoin, hout⟩ := hf (cs.foldl f p) d
    rcases List.mem_append.1 hc with hc | hc
    · exact ih c hc e (hjoin e he)
    · rw [List.mem_singleton.1 hc]
      exact hout e he

/-! ## STARTUP leaves the latches (R189) -/

end

/-- What the release of a cause leaves standing. -/
structure Part.ReleasesOnly (p q : Part) : Prop where
  tracker : q.tracker = p.tracker
  arbiter : q.arbiter = p.arbiter
  orders : q.gate.orders = p.gate.orders
  hooks : q.hooks = p.hooks
  slots : q.slots = p.slots
  bays : q.bays = p.bays
  params : q.params = p.params
  clock : q.mgmt.clock = p.mgmt.clock

theorem Part.ReleasesOnly.refl (p : Part) : p.ReleasesOnly p := ⟨rfl, rfl, rfl, rfl, rfl, rfl, rfl, rfl⟩

theorem Part.ReleasesOnly.trans {p q r : Part} (h : p.ReleasesOnly q) (k : q.ReleasesOnly r) : p.ReleasesOnly r :=
  ⟨k.tracker.trans h.tracker, k.arbiter.trans h.arbiter, k.orders.trans h.orders, k.hooks.trans h.hooks, k.slots.trans h.slots,
    k.bays.trans h.bays, k.params.trans h.params, k.clock.trans h.clock⟩

theorem Part.notify_releasesOnly (p : Part) (k : NoticeKind) (a v1 v2 v3 : Nat) : p.ReleasesOnly (p.notify k a v1 v2 v3) := by
  obtain ⟨l, ns, n, h⟩ := p.notify_form k a v1 v2 v3
  rw [h]
  exact ⟨rfl, rfl, rfl, rfl, rfl, rfl, rfl, rfl⟩

theorem Part.latchCleared_releasesOnly (p : Part) (c : Fin 4) (why : Nat) : p.ReleasesOnly (p.latchCleared c why) :=
  Part.ReleasesOnly.trans (p := p) (q := (p.commandStop c false).onLink (Link.removeStop c))
    ⟨rfl, rfl, rfl, rfl, rfl, rfl, rfl, rfl⟩ (Part.notify_releasesOnly _ _ _ _ _ _)

theorem Part.removeStartup_releasesOnly (p : Part) (c : Fin 4) : p.ReleasesOnly (p.removeStartup c) := by
  have hdrop : p.ReleasesOnly (p.dropCause c .startup) := ⟨rfl, rfl, rfl, rfl, rfl, rfl, rfl, rfl⟩
  unfold Part.removeStartup
  split
  · simp only []
    split
    · exact hdrop
    · exact hdrop.trans (Part.latchCleared_releasesOnly _ c 2)
  · exact .refl p

/-- A latch without STARTUP. -/
def Latch.started (l : Latch) : Latch := { l with causes := { l.causes with startup := false } }

theorem Part.latchCleared_latch (p : Part) (c d : Fin 4) (why : Nat) : (p.latchCleared c why).latch d = p.latch d := by
  have hgate : (p.latchCleared c why).gate = p.gate := Part.notify_gate ..
  rw [Part.latch, hgate]
  rfl

theorem Part.removeStartup_latch (p : Part) (c d : Fin 4) :
    (p.removeStartup c).latch d = if d = c then (p.latch d).started else p.latch d := by
  have hdrop : (p.dropCause c .startup).latch d = if d = c then (p.latch d).started else p.latch d := by
    by_cases hd : d = c
    · subst hd
      rw [if_pos rfl]
      exact Part.setLatch_latch ..
    · rw [if_neg hd]
      exact Part.setLatch_latch_ne _ _ _ _ hd
  unfold Part.removeStartup
  cases hs : (p.latch c).causes.startup with
  | true =>
    simp only [if_true]
    split
    · exact hdrop
    · rw [Part.latchCleared_latch, hdrop]
  | false =>
    by_cases hd : d = c
    · subst hd
      have hsame : (p.latch d).started = p.latch d := by
        rw [Latch.started, ← hs]
      simp only [Bool.false_eq_true, if_false, if_true, hsame]
    · simp only [Bool.false_eq_true, if_false, if_neg hd]

theorem Part.foldl_removeStartup (cs : List (Fin 4)) (p : Part) :
    p.ReleasesOnly (cs.foldl (fun p c => p.removeStartup c) p)
      ∧ ∀ d, (cs.foldl (fun p c => p.removeStartup c) p).latch d = if d ∈ cs then (p.latch d).started else p.latch d := by
  induction cs generalizing p with
  | nil => exact ⟨.refl p, fun d => (if_neg List.not_mem_nil).symm⟩
  | cons c cs ih =>
    obtain ⟨honly, hlatch⟩ := ih (p.removeStartup c)
    refine ⟨(p.removeStartup_releasesOnly c).trans honly, fun d => ?_⟩
    rw [List.foldl_cons, hlatch, Part.removeStartup_latch]
    by_cases hc : d = c
    · subst hc
      simp only [List.mem_cons, true_or, if_true]
      split <;> rfl
    · simp only [List.mem_cons, hc, false_or, if_false]

/-! ## The change of mode itself -/

section
variable (p : Part) (m : Mode) (cause : Nat)

theorem Part.changeMode_releasesOnly : p.ReleasesOnly (p.changeMode m cause) :=
  Part.ReleasesOnly.trans (p := p) (q := { p with mgmt := { p.mgmt with mode := m } })
    ⟨rfl, rfl, rfl, rfl, rfl, rfl, rfl, rfl⟩ (Part.notify_releasesOnly _ _ _ _ _ _)

theorem Part.changeMode_gate : (p.changeMode m cause).gate = p.gate := Part.notify_gate ..

theorem Part.changeMode_mode : (p.changeMode m cause).mgmt.mode = m := Part.notify_mode ..

theorem Part.changeMode_noneJoins : p.NoneJoins (p.changeMode m cause) :=
  Part.notify_noneJoins { p with mgmt := { p.mgmt with mode := m } } _ _ _ _ _

theorem Part.ok_releasesOnly (f : Frame) (data : List Byte) : p.ReleasesOnly (p.ok f data) := by
  obtain ⟨l, r, h⟩ := p.answerFrame_form f .ok none data
  rw [Part.ok, h]
  exact ⟨rfl, rfl, rfl, rfl, rfl, rfl, rfl, rfl⟩

end

theorem Part.configured_congr {p q : Part} (h : q.tracker.entries = p.tracker.entries) : q.configured = p.configured := by
  unfold Part.configured Part.entry
  rw [h]

theorem Part.buildGrants_form (p : Part) : ∃ a : Arbiter, p.buildGrants = { p with arbiter := a } := ⟨_, rfl⟩

theorem Part.envelopes_keep (p : Part) (cs : List (Fin 4)) :
    p.Keeps Scope.wide (cs.foldl (fun p c => p.requestEnvelope c) p) :=
  Part.keeps_foldl _ (fun q c => q.requestEnvelope_keeps c trivial) cs p

/-- Settles O54. -/
theorem modesChange : Obligations.ModesChange := by
  unfold Obligations.ModesChange
  intro s f hreq hq
  have hother : ∀ (n : Nat) (q : Part), readOne f.payload = some n → n ≠ 2 → n ≤ 2 → serveMode f s.part.dropSup = q →
      exec .modeRun s = .next (s.withPart q) := by
    intro n q hread hn hle h
    rw [exec_modeRun]
    refine State.act_eq hreq.1 ?_
    rw [served_of_request hreq rfl (by simp [asksOther, asksMaintenance, hread, hn]) (by simp [formFits, hread, hle])]
    simp only [dropSup_await hq, h]
  have hmaint : ∀ q : Part, readOne f.payload = some 2 → serveMode f s.part.dropSup = q →
      exec .modeMaintenance s = .next (s.withPart q) := by
    intro q hread h
    rw [exec_modeMaintenance]
    refine State.act_eq hreq.1 ?_
    rw [served_of_request hreq rfl (by simp [asksMaintenance, hread]) (by simp [formFits, hread])]
    simp only [dropSup_await hq, h]
  have hjudge : readOne f.payload = some 1 → s.part.mgmt.mode ≠ .run →
      serveMode f s.part.dropSup = s.part.dropSup.judgeRun f := by
    intro hread hmode
    have hmode' : s.part.dropSup.mgmt.mode = s.part.mgmt.mode := rfl
    cases hm : s.part.mgmt.mode with
    | run => exact absurd hm hmode
    | startup => simp only [serveMode, hread, hmode', hm]
    | maintenance => simp only [serveMode, hread, hmode', hm]
  have hmode' : s.part.dropSup.mgmt.mode = s.part.mgmt.mode := rfl
  refine ⟨fun hread hmode => hother 1 _ hread (by decide) (by decide) ?_, fun hread hmode => hmaint _ hread ?_,
    fun hread hmode => hmaint _ hread ?_, fun why i hread hmode hchecks => hother 1 _ hread (by decide) (by decide) ?_,
    fun hread => hother 0 _ hread (by decide) (by decide) ?_, fun hbad => ?_,
    fun why i hread hmode hchecks hcover => hother 1 _ hread (by decide) (by decide) ?_,
    fun hread hmode hchecks hcover => ?_, fun hread hmode => ?_⟩
  · simp only [serveMode, hread, hmode', hmode]
  · simp only [serveMode, hread, hmode', hmode]
  · simp only [serveMode, hread, hmode', hmode]
    rfl
  · have hchecks' : s.part.dropSup.runChecks = some (why, i) := hchecks
    rw [hjudge hread hmode]
    simp only [Part.judgeRun, hchecks']
    rfl
  · simp only [serveMode, hread]
    rfl
  · rw [exec_modeRun]
    refine State.act_eq hreq.1 ?_
    have hwant : asksOther f.payload = true := by
      simp only [asksOther, asksMaintenance, Bool.not_eq_true', beq_eq_false_iff_ne]
      intro h
      exact absurd (hbad 2 h) (by decide)
    have hform : formFits .mode f.payload = false := by
      cases hread : readOne f.payload with
      | none => simp [formFits, hread]
      | some n => simp [formFits, hread, hbad n hread]
    rw [manage_of_request hreq rfl _ hwant, hform, if_neg Bool.false_ne_true]
    rfl
  · have hchecks' : s.part.dropSup.runChecks = none := hchecks
    rw [hjudge hread hmode]
    simp only [Part.judgeRun, hchecks', show s.part.dropSup.configured = s.part.configured from rfl, hcover]
    rfl
  · have hchecks' : s.part.dropSup.runChecks = none := hchecks
    generalize hp : s.part.configured.foldl (fun p c => p.requestEnvelope c) s.part.dropSup = p at hcover ⊢
    have hserve : serveMode f s.part.dropSup = p.enterRun.ok f [] := by
      rw [hjudge hread hmode]
      simp only [Part.judgeRun, hchecks', show s.part.dropSup.configured = s.part.configured from rfl, hp, hcover]
    have hentries : p.tracker.entries = s.part.tracker.entries := hp ▸ (s.part.dropSup.envelopes_keep s.part.configured).entries
    have hconf : p.configured = s.part.configured := Part.configured_congr hentries
    have hentry : ∀ c, p.entry c = s.part.entry c := fun c => congrArg (fun es : Vector CraneEntry 4 => es[c]) hentries
    obtain ⟨honly, hlatch⟩ := Part.foldl_removeStartup p.buildGrants.configured p.buildGrants
    have hall : p.buildGrants.ReleasesOnly (p.enterRun.ok f []) :=
      honly.trans ((Part.changeMode_releasesOnly _ .run 1).trans (Part.ok_releasesOnly _ f []))
    obtain ⟨a, hfrom⟩ := p.buildGrants_form
    obtain ⟨t, hnext, hpending, hpart⟩ := State.exists_next (hother 1 _ hread (by decide) (by decide) hserve)
    refine ⟨t, hnext, hpending, ?_⟩
    rw [hpart]
    refine ⟨?_, fun c => ?_, fun k => ?_, fun c => ?_, hall.tracker.trans (by rw [hfrom]),
      hall.orders.trans (by rw [hfrom]), hall.hooks.trans (by rw [hfrom]), hall.slots.trans (by rw [hfrom]),
      hall.bays.trans (by rw [hfrom]), hall.params.trans (by rw [hfrom]), hall.clock.trans (by rw [hfrom])⟩
    · rw [Part.ok, Part.answerFrame_mode]
      exact Part.changeMode_mode _ _ _
    · rw [Part.run, hall.arbiter, ← hentry c]
      simp only [Part.buildGrants, Fin.getElem_fin, Vector.getElem_ofFn]
    · rw [hall.arbiter, ← hconf]
      simp only [Part.buildGrants, Fin.getElem_fin, Vector.getElem_ofFn]
    · have hgate : (p.enterRun.ok f []).gate =
          (p.buildGrants.configured.foldl (fun p c => p.removeStartup c) p.buildGrants).gate :=
        (Part.answerFrame_gate ..).trans (Part.changeMode_gate _ _ _)
      rw [Part.latch, hgate, ← Part.latch, hlatch]
      have hbuilt : p.buildGrants.latch c = p.latch c := by
        rw [hfrom]
        rfl
      have hconfigured : p.buildGrants.configured = s.part.configured := by
        rw [hfrom]
        exact hconf
      simp only [hbuilt, hconfigured, mem_configured_iff]
      rfl
  · have hserve : serveMode f s.part.dropSup = s.part.dropSup.enterMaintenance.ok f [] := by
      simp only [serveMode, hread, hmode', hmode]
    have hends := Part.foldl_endsAll Part.maintainCrane_endsOnly s.part.dropSup.configured s.part.dropSup
    have hnormal := Part.foldl_withoutCommands Part.maintainCrane_normal s.part.dropSup.configured s.part.dropSup
    generalize hp : s.part.dropSup.configured.foldl (fun p c => p.maintainCrane c) s.part.dropSup = p at hends hnormal
    have henter : s.part.dropSup.enterMaintenance = p.changeMode .maintenance 1 := by rw [Part.enterMaintenance, hp]
    rw [henter] at hserve
    have hlast : p.ReleasesOnly ((p.changeMode .maintenance 1).ok f []) :=
      (Part.changeMode_releasesOnly p .maintenance 1).trans (Part.ok_releasesOnly _ f [])
    have hgate : ((p.changeMode .maintenance 1).ok f []).gate = p.gate :=
      (Part.answerFrame_gate ..).trans (Part.changeMode_gate _ _ _)
    have hjoin : p.NoneJoins ((p.changeMode .maintenance 1).ok f []) :=
      (Part.changeMode_noneJoins p .maintenance 1).trans (Part.answerFrame_noneJoins _ f .ok none [])
    have horder : ∀ c, ((p.changeMode .maintenance 1).ok f []).order c = p.order c := fun c => by
      rw [Part.order, hgate, ← Part.order]
    have hmem := mem_configured_iff s.part.dropSup
    obtain ⟨t, hnext, hpending, hpart⟩ := State.exists_next (hmaint _ hread hserve)
    refine ⟨t, hnext, hpending, ?_⟩
    rw [hpart]
    refine ⟨?_, fun c hc => ⟨?_, fun e he => ?_⟩, fun c hc => ?_, ?_, ?_, ?_, ?_, ?_, ?_⟩
    · rw [Part.ok, Part.answerFrame_mode]
      exact Part.changeMode_mode _ _ _
    · rw [Part.activeOrder, horder]
      exact hends.ended c ((hmem c).2 hc)
    · exact hnormal c ((hmem c).2 hc) e (hjoin e he)
    · rw [horder]
      exact hends.order c fun h => absurd (((hmem c).1 h).symm.trans hc) (by decide)
    · rw [hlast.arbiter]
      exact hends.runs
    · rw [hgate]
      exact hends.latches
    · rw [hlast.tracker]
      exact congrArg Tracker.entries hends.tracker
    · rw [hlast.tracker]
      exact congrArg Tracker.records hends.tracker
    · rw [hlast.params]
      exact hends.params
    · rw [hlast.clock, ← hp]
      exact (Part.keeps_foldl (S := Scope.tight) _ (fun q c => q.maintainCrane_keeps c) _ s.part.dropSup).clock

end Sys2Proof.Machine
end

section
/-! O55. The warm restart (R50, R74, R96, R120, R134, R191). -/

namespace Sys2Proof.Machine

/-! ## The orders of the cranes (R74, R120) -/

/-- Every zone stands, but for what a restart takes from it. -/
def Part.SameAfterRestart (p q : Part) : Prop := ∀ k, (q.zone k).restart = (p.zone k).restart

theorem Part.SameAfterRestart.of_arbiter {p q : Part} (h : q.arbiter = p.arbiter) : p.SameAfterRestart q := by
  intro k
  rw [Part.zone, h, ← Part.zone]

theorem Part.SameAfterRestart.trans {p q r : Part} (h : p.SameAfterRestart q) (k : q.SameAfterRestart r) :
    p.SameAfterRestart r := fun j => (k j).trans (h j)

section
variable (p : Part) (c : Fin 4)

theorem Part.withdrawClaim_sameAfterRestart : p.SameAfterRestart (p.withdrawClaim c) := by
  unfold Part.withdrawClaim
  split
  · exact fun _ => rfl
  next cl _ =>
    intro j
    change ((p.setZone cl.zone ((p.zone cl.zone).dropWaiter c)).zone j).restart = _
    by_cases hj : j = cl.zone
    · subst hj
      by_cases hin : cl.zone < 32
      · rw [Part.setZone_zone _ _ _ hin]
        rfl
      · rw [Part.setZone_out _ _ _ hin]
    · rw [Part.setZone_zone_ne _ _ _ _ hj]

theorem Part.clearSource_arbiter : (p.clearSource c).arbiter = p.arbiter := by
  unfold Part.clearSource
  split
  · rfl
  · simp only []
    split <;> rfl

theorem Part.revertSlotDest_arbiter (i : Nat) : (p.revertSlotDest i c).arbiter = p.arbiter := by
  unfold Part.revertSlotDest
  simp only []
  split
  · exact Part.notify_arbiter ..
  · rfl

theorem Part.revertPlacement_arbiter (b : Fin 6) (k : Nat) : (p.revertPlacement b k c).arbiter = p.arbiter := by
  unfold Part.revertPlacement
  split <;> rfl

theorem Part.clearDest_arbiter : (p.clearDest c).arbiter = p.arbiter := by
  unfold Part.clearDest
  split
  · rfl
  · simp only []
    split
    · exact Part.revertSlotDest_arbiter ..
    · exact Part.revertPlacement_arbiter ..

theorem Part.revertSlotDest_hooks (i : Nat) : (p.revertSlotDest i c).hooks = p.hooks := by
  unfold Part.revertSlotDest
  simp only []
  split
  · exact Part.notify_hooks ..
  · rfl

theorem Part.revertPlacement_hooks (b : Fin 6) (k : Nat) : (p.revertPlacement b k c).hooks = p.hooks := by
  unfold Part.revertPlacement
  split <;> rfl

theorem Part.clearDest_dest : ((p.clearDest c).hook c).dest = none := by
  unfold Part.clearDest
  split
  next h => exact h
  · have hset : ((p.setHook c { p.hook c with dest := none }).hook c).dest = none := by rw [Part.setHook_hook]
    simp only []
    split
    · rw [Part.hook, Part.revertSlotDest_hooks]
      exact hset
    · rw [Part.hook, Part.revertPlacement_hooks]
      exact hset

theorem Part.clearSource_dest : ((p.clearSource c).hook c).dest = (p.hook c).dest := by
  unfold Part.clearSource
  split
  · rfl
  · have hset : ((p.setHook c { p.hook c with source := none }).hook c).dest = (p.hook c).dest := by rw [Part.setHook_hook]
    simp only []
    split
    · exact hset
    · exact hset

theorem Part.endOrder_sameAfterRestart (complete : Bool) (v : Option (VerdictKind × Option Reason)) :
    p.SameAfterRestart (p.endOrder c complete v) := by
  unfold Part.endOrder
  split
  · exact fun _ => rfl
  next o _ =>
    have hout : p.SameAfterRestart ((((p.setOrder c (some { o with state := .ended, pending := none })).dropTurn
        c).withdrawClaim c).onLink (Link.removeCommands c)) :=
      Part.withdrawClaim_sameAfterRestart ((p.setOrder c (some { o with state := .ended, pending := none })).dropTurn c) c
    have hsource : ∀ q : Part, (if (q.hook c).state == .empty then q.clearSource c else q).arbiter = q.arbiter := by
      intro q
      split
      · exact q.clearSource_arbiter c
      · rfl
    have hdest : ∀ q : Part, (if o.setDest && !complete then q.clearDest c else q).arbiter = q.arbiter := by
      intro q
      split
      · exact q.clearDest_arbiter c
      · rfl
    have hall := hout.trans (.of_arbiter ((hdest _).trans (hsource _)))
    cases v with
    | none => exact hall
    | some v => exact hall.trans (.of_arbiter (Part.verdict_arbiter ..))

/-- What the restart of one crane's order leaves standing (R74, R120). -/
structure Part.OrdersFall (p q : Part) : Prop where
  tracker : q.tracker = p.tracker
  engine : q.engine = p.engine
  latches : q.gate.latches = p.gate.latches
  hooks : ∀ c, (q.hook c).unbound = (p.hook c).unbound
  zones : p.SameAfterRestart q

theorem Part.OrdersFall.trans {p q r : Part} (h : p.OrdersFall q) (k : q.OrdersFall r) : p.OrdersFall r :=
  ⟨k.tracker.trans h.tracker, k.engine.trans h.engine, k.latches.trans h.latches, fun c => (k.hooks c).trans (h.hooks c),
    h.zones.trans k.zones⟩

/-- The order of a crane is gone, and its hook is bound for nothing. -/
structure Part.Idle (p : Part) (c : Fin 4) : Prop where
  order : p.order c = none
  dest : (p.hook c).dest = none

/-- A source is freed where the hook is EMPTY (R74). -/
theorem Part.freeSource_keeps (q : Part) (h : p.EndsOnly c q) (hr : p.Reacts q) (hz : p.SameAfterRestart q)
    (hd : (q.hook c).dest = none) :
    ∃ r, (if (q.hook c).state = .empty then q.clearSource c else q) = r ∧ p.EndsOnly c r ∧ p.Reacts r ∧ p.SameAfterRestart r
      ∧ (r.hook c).dest = none := by
  by_cases he : (q.hook c).state = .empty
  · exact ⟨q.clearSource c, if_pos he, h.trans (q.clearSource_endsOnly c), hr.trans (q.clearSource_reacts c),
      hz.trans (.of_arbiter (q.clearSource_arbiter c)), (q.clearSource_dest c).trans hd⟩
  · exact ⟨q, if_neg he, h, hr, hz, hd⟩

theorem Part.restartOrder_form :
    ∃ r, p.restartOrder c = r.setOrder c none ∧ p.EndsOnly c r ∧ p.Reacts r ∧ p.SameAfterRestart r ∧ (r.hook c).dest = none := by
  obtain ⟨r, hr, h⟩ := p.freeSource_keeps c ((p.endOrder c false none).clearDest c)
    ((p.endOrder_endsOnly c false none).trans (Part.clearDest_endsOnly _ c))
    ((p.endOrder_reacts c false none).trans (Part.clearDest_reacts _ c))
    ((p.endOrder_sameAfterRestart c false none).trans (.of_arbiter (Part.clearDest_arbiter _ c))) (Part.clearDest_dest _ c)
  refine ⟨r, ?_, h⟩
  unfold Part.restartOrder
  simp only []
  rw [hr]

theorem Part.restartOrder_idle :
    p.OrdersFall (p.restartOrder c) ∧ p.EndsOnly c (p.restartOrder c) ∧ (p.restartOrder c).Idle c := by
  obtain ⟨r, hr, h1, h2, h3, h4⟩ := p.restartOrder_form c
  rw [hr]
  exact ⟨⟨h1.tracker, h1.engine, h1.latches, h2.hooks, h3⟩, h1.trans (r.setOrder_endsOnly c none),
    r.setOrder_order c none, h4⟩

end

/-- The restart of one crane's order after another (R74, R120). -/
theorem Part.foldl_restartOrder (cs : List (Fin 4)) (p : Part) :
    p.OrdersFall (cs.foldl (fun p c => p.restartOrder c) p)
      ∧ ∀ c ∈ cs, (cs.foldl (fun p c => p.restartOrder c) p).Idle c := by
  induction cs using List.reverseRecOn with
  | nil => exact ⟨⟨rfl, rfl, rfl, fun _ => rfl, fun _ => rfl⟩, fun _ h => absurd h List.not_mem_nil⟩
  | append_singleton cs d ih =>
    obtain ⟨hfall, hidle⟩ := ih
    rw [List.foldl_append, List.foldl_cons, List.foldl_nil]
    obtain ⟨hstep, honly, hnew⟩ := (cs.foldl (fun p c => p.restartOrder c) p).restartOrder_idle d
    refine ⟨hfall.trans hstep, fun c hc => ?_⟩
    by_cases hd : c = d
    · rw [hd]
      exact hnew
    · have hold := hidle c (by simpa [hd] using hc)
      exact ⟨(honly.order c hd).trans hold.order, (congrArg Hook.dest (honly.hook c hd)).trans hold.dest⟩

/-! ## The requests of the engine (R134) -/

theorem pickOldest_some (now : Time) (b : SearchOrigin × Time) (l : List (SearchOrigin × Time)) (free : Nat) :
    ∃ o ∈ b :: l, (pickOldest now (some b) l free).1 = some o.1 := by
  induction l generalizing b free with
  | nil => exact ⟨b, List.mem_singleton_self b, rfl⟩
  | cons x l ih =>
    have hb : ∀ free, ∃ o ∈ b :: x :: l, (pickOldest now (some b) l free).1 = some o.1 := by
      intro free
      obtain ⟨o, ho, h⟩ := ih b free
      exact ⟨o, by rcases List.mem_cons.1 ho with ho | ho <;> simp [ho], h⟩
    have hx : ∀ free, ∃ o ∈ b :: x :: l, (pickOldest now (some x) l free).1 = some o.1 := by
      intro free
      obtain ⟨o, ho, h⟩ := ih x free
      exact ⟨o, List.mem_cons_of_mem b ho, h⟩
    unfold pickOldest
    split
    · exact hx free
    · split
      · exact hb free
      · split
        · exact hb _
        · exact hx _

theorem pickOldest_none (now : Time) (l : List (SearchOrigin × Time)) (free : Nat) (h : l ≠ []) :
    ∃ o ∈ l, (pickOldest now none l free).1 = some o.1 := by
  obtain ⟨x, rest, rfl⟩ := List.exists_cons_of_ne_nil h
  exact pickOldest_some now x rest free

/-- How many requests the engine holds. -/
def Engine.waiting (e : Engine) : Nat := e.queue.length + (Finset.univ.filter fun c : Fin 4 => e.deferred[c].isSome).card

/-- One request is answered and removed (R134). -/
def Part.settleOne (p : Part) (o : SearchOrigin) (free : Nat) : Part :=
  let p := { p with free := free }
  ((p.requestAt o).elim p fun q => p.giveAnswer (q.refusal o.restartReason)).removeRequest o

theorem Part.settleRequests_of_some {p : Part} {o : SearchOrigin} {free : Nat} (n : Nat)
    (h : pickOldest p.now none (p.waitingRequests true) p.free = (some o, free)) :
    Part.settleRequests (n + 1) p = Part.settleRequests n (p.settleOne o free) := by
  rw [Part.settleRequests, h, Part.settleOne]
  cases h : ({ p with free := free } : Part).requestAt o <;> simp only [h] <;> rfl

theorem Part.settleRequests_of_none {p : Part} {free : Nat} (n : Nat)
    (h : pickOldest p.now none (p.waitingRequests true) p.free = (none, free)) : Part.settleRequests (n + 1) p = p := by
  rw [Part.settleRequests, h]

/-- What one request that is settled changes: the answers aside, its place in the engine. -/
theorem Part.settleOne_form (p : Part) (o : SearchOrigin) (free : Nat) :
    ∃ (l : Link) (answers : List ReplyBody), p.settleOne o free =
      ({ p with link := l, engine := { p.engine with answers := answers }, free := free } : Part).removeRequest o := by
  unfold Part.settleOne
  simp only []
  cases ({ p with free := free } : Part).requestAt o with
  | none => exact ⟨p.link, p.engine.answers, rfl⟩
  | some q =>
    rw [Option.elim_some, Part.giveAnswer]
    split
    · exact ⟨_, p.engine.answers, rfl⟩
    · exact ⟨p.link, _, rfl⟩

theorem Part.settleRequests_form (n : Nat) (p : Part) :
    ∃ (l : Link) (e : Engine) (free : Nat), Part.settleRequests n p = { p with link := l, engine := e, free := free } := by
  induction n generalizing p with
  | zero => exact ⟨_, _, _, rfl⟩
  | succ n ih =>
    rcases hpick : pickOldest p.now none (p.waitingRequests true) p.free with ⟨picked, free⟩
    cases picked with
    | none => exact ⟨_, _, _, Part.settleRequests_of_none n hpick⟩
    | some o =>
      rw [Part.settleRequests_of_some n hpick]
      obtain ⟨l, answers, h⟩ := p.settleOne_form o free
      obtain ⟨l', e', free', h'⟩ := ih (p.settleOne o free)
      rw [h', h]
      cases o <;> exact ⟨l', e', free', rfl⟩

theorem Part.mem_waitingRequests {p : Part} {o : SearchOrigin × Time} (h : o ∈ p.waitingRequests true) :
    (p.requestAt o.1).isSome = true := by
  rcases List.mem_append.1 h with h | h
  · cases hq : p.engine.queue with
    | nil =>
      rw [hq] at h
      exact absurd h List.not_mem_nil
    | cons q rest =>
      rw [hq] at h
      rw [List.mem_singleton.1 h, Part.requestAt, hq]
      rfl
  · obtain ⟨c, _, hc⟩ := List.mem_filterMap.1 h
    cases hd : p.engine.deferred[c] with
    | none => simp [hd] at hc
    | some d =>
      simp only [hd, Option.bind_some] at hc
      obtain ⟨t, _, rfl⟩ := Option.map_eq_some_iff.1 hc
      simp only [Part.requestAt, hd, Option.map_some, Option.isSome_some]

/-- Nothing waits when nothing can be picked. -/
theorem Part.waitingRequests_eq_nil {p : Part} (h : p.waitingRequests true = []) :
    p.engine.queue = [] ∧ ∀ c : Fin 4, p.engine.deferred[c] = none := by
  obtain ⟨hqueue, hdeferred⟩ := List.append_eq_nil_iff.1 h
  constructor
  · cases hq : p.engine.queue with
    | nil => rfl
    | cons q rest => simp [hq] at hqueue
  · intro c
    have hc := List.filterMap_eq_nil_iff.1 hdeferred c (mem_craneList c)
    cases hd : p.engine.deferred[c] with
    | none => rfl
    | some d =>
      obtain ⟨req, state⟩ := d
      cases state <;> simp [hd, Deferred.time] at hc

/-- One request fewer waits. -/
theorem Part.settleOne_waiting {p : Part} {o : SearchOrigin} (free : Nat) (h : (p.requestAt o).isSome = true) :
    (p.settleOne o free).engine.waiting + 1 = p.engine.waiting := by
  obtain ⟨l, answers, hform⟩ := p.settleOne_form o free
  rw [hform]
  cases o with
  | queue =>
    cases hq : p.engine.queue with
    | nil => simp [Part.requestAt, hq] at h
    | cons q rest => simp [Part.removeRequest, Part.setQueue, Engine.waiting, hq]; omega
  | deferred c =>
    have hc : p.engine.deferred[c].isSome = true := by simpa [Part.requestAt] using h
    have herase : (Finset.univ.filter fun d : Fin 4 => (p.engine.deferred.set c none)[d].isSome) =
        (Finset.univ.filter fun d : Fin 4 => p.engine.deferred[d].isSome).erase c := by
      ext d
      by_cases hd : d = c
      · simp [hd]
      · have hne : c.val ≠ d.val := fun h => hd (Fin.ext h.symm)
        simp [hd, Vector.getElem_set, hne]
    have hmem : c ∈ Finset.univ.filter fun d : Fin 4 => p.engine.deferred[d].isSome := by simpa using hc
    have hcard := Finset.card_erase_add_one hmem
    change p.engine.queue.length + (Finset.univ.filter fun d : Fin 4 => (p.engine.deferred.set c none)[d].isSome).card + 1 =
      p.engine.queue.length + (Finset.univ.filter fun d : Fin 4 => p.engine.deferred[d].isSome).card
    rw [herase, Nat.add_assoc, hcard]

/-- With as many turns as requests, none is left (R134). -/
theorem Part.settleRequests_all (n : Nat) (p : Part) (h : p.engine.waiting ≤ n) :
    (Part.settleRequests n p).engine.queue = [] ∧ ∀ c : Fin 4, (Part.settleRequests n p).engine.deferred[c] = none := by
  induction n generalizing p with
  | zero =>
    obtain ⟨hqueue, hdeferred⟩ := Nat.add_eq_zero_iff.1 (Nat.le_zero.1 h)
    refine ⟨List.length_eq_zero_iff.1 hqueue, fun c => ?_⟩
    have hc := Finset.filter_eq_empty_iff.1 (Finset.card_eq_zero.1 hdeferred) (Finset.mem_univ c)
    exact Option.not_isSome_iff_eq_none.1 hc
  | succ n ih =>
    by_cases hnone : p.waitingRequests true = []
    · have hpick : pickOldest p.now none (p.waitingRequests true) p.free = (none, p.free) := by
        rw [hnone]
        rfl
      rw [Part.settleRequests_of_none n hpick]
      exact Part.waitingRequests_eq_nil hnone
    · obtain ⟨o, ho, hpicked⟩ := pickOldest_none p.now _ p.free hnone
      have hpick := Prod.ext (x := pickOldest p.now none (p.waitingRequests true) p.free) (y := (some o.1, _)) hpicked rfl
      rw [Part.settleRequests_of_some n hpick]
      refine ih _ ?_
      have hfewer := Part.settleOne_waiting (pickOldest p.now none (p.waitingRequests true) p.free).2
        (Part.mem_waitingRequests ho)
      exact Nat.le_of_succ_le_succ (hfewer.le.trans h)

/-! ## STARTUP joins the latches (R191) -/

/-- A stop of a crane without an active order (R66). -/
theorem Part.requestStop_idle {p : Part} {c : Fin 4} (x : StopCause) (b : Option (Fin 6)) (h : p.activeOrder c = none) :
    p.ReleasesOnly (p.requestStop c x b) := by
  have hset : ∀ l : Latch, p.ReleasesOnly (p.setLatch c l) := fun _ => ⟨rfl, rfl, rfl, rfl, rfl, rfl, rfl, rfl⟩
  have hstopped : p.ReleasesOnly (p.stopped c x b) := ⟨rfl, rfl, rfl, rfl, rfl, rfl, rfl, rfl⟩
  cases hconf : (p.entry c).configured with
  | false =>
    rw [p.requestStop_of_unconfigured c x b hconf]
    exact .refl p
  | true =>
    cases hx : (p.latch c).causes.has x with
    | true =>
      rw [p.requestStop_of_held c x b hconf hx]
      exact hset _
    | false =>
      rw [p.requestStop_of_new c x b hconf hx, Part.endOrder_of_none (p.stopped c x b) c _ _ h]
      exact hstopped.trans (Part.notify_releasesOnly _ _ _ _ _ _)

theorem Part.foldl_requestStop_idle (x : StopCause) (cs : List (Fin 4)) (p : Part) (h : ∀ c, p.order c = none) :
    let q := cs.foldl (fun p c => p.requestStop c x none) p
    p.ReleasesOnly q ∧ p.Reacts q ∧ (∀ c ∈ cs, (p.entry c).configured = true → (q.latch c).causes.has x = true)
      ∧ ∀ c, (p.entry c).configured = false → q.latch c = p.latch c := by
  induction cs using List.reverseRecOn with
  | nil => exact ⟨.refl p, .refl p, fun _ h => absurd h List.not_mem_nil, fun _ _ => rfl⟩
  | append_singleton cs d ih =>
    intro q
    obtain ⟨honly, hreacts, hhas, hlatch⟩ := ih
    have hq : q = (cs.foldl (fun p c => p.requestStop c x none) p).requestStop d x none := by
      simp only [q, List.foldl_append, List.foldl_cons, List.foldl_nil]
    rw [hq]
    generalize cs.foldl (fun p c => p.requestStop c x none) p = r at honly hreacts hhas hlatch
    have hidle : r.activeOrder d = none := by
      have horder : r.order d = none := (congrArg (fun os : Vector (Option Order) 4 => os[d]) honly.orders).trans (h d)
      rw [Part.activeOrder, horder]
      rfl
    have hentry : ∀ c, r.entry c = p.entry c := fun c =>
      congrArg (fun t : Tracker => t.entries[c]) honly.tracker
    have hstep := r.requestStop_reacts d x none
    refine ⟨honly.trans (Part.requestStop_idle x none hidle), hreacts.trans hstep, fun c hc hconf => ?_, fun c hconf => ?_⟩
    · rcases List.mem_append.1 hc with hc | hc
      · exact hstep.causes c x (hhas c hc hconf)
      · rw [List.mem_singleton.1 hc] at hconf ⊢
        exact r.requestStop_has d x none ((congrArg CraneEntry.configured (hentry d)).trans hconf)
    · by_cases hc : c = d
      · subst hc
        rw [r.requestStop_of_unconfigured c x none ((congrArg CraneEntry.configured (hentry c)).trans hconf)]
        exact hlatch c hconf
      · exact ((r.requestStop_onlyCrane d x none).latch c hc).trans (hlatch c hconf)

/-! ## The restart -/

/-- The hooks of a part after a restart (R96). -/
def Part.restartedHooks (p : Part) : Vector Hook 4 := Vector.ofFn fun c => p.hooks[c].restart

theorem Part.restartedHooks_getElem (p : Part) (c : Fin 4) : p.restartedHooks[c] = (p.hook c).restart :=
  Vector.getElem_ofFn c.isLt

theorem Arbiter.restart_zone (a : Arbiter) (k : Fin 32) : a.restart.zones[k] = a.zones[k].restart :=
  Vector.getElem_ofFn k.isLt

theorem Arbiter.restart_run (a : Arbiter) (c : Fin 4) : a.restart.runs[c] = none := Vector.getElem_replicate c.isLt

theorem Arbiter.restart_claim (a : Arbiter) (c : Fin 4) : a.restart.claims[c] = none := Vector.getElem_replicate c.isLt

/-- The part once the orders have fallen and the hooks and the arbiter have restarted (R50, R74, R96). -/
def Part.cleared (p : Part) : Part :=
  let q := craneList.foldl (fun p c => p.restartOrder c) p
  { q with hooks := q.restartedHooks, arbiter := q.arbiter.restart }

/-- The part with its requests settled and every configured crane stopped (R134, R191). -/
def Part.halted (p : Part) : Part :=
  let q := Part.settleRequests 12 p.cleared
  q.configured.foldl (fun p c => p.requestStop c .startup none) q

theorem serveRestart_eq {f : Frame} (h : f.payload = []) (p : Part) :
    serveRestart f p = (p.halted.changeMode .startup 2).ok f [] := by
  unfold serveRestart
  rw [h]
  exact if_neg Bool.false_ne_true

/-- What the fall of the orders leaves of a part, hooks and arbiter restarted. -/
theorem Part.cleared_form (p : Part) :
    ∃ (q : Part) (hs : Vector Hook 4) (a : Arbiter), p.cleared = { q with hooks := hs, arbiter := a }
      ∧ p.OrdersFall q ∧ (∀ c, q.order c = none)
      ∧ (∀ c : Fin 4, hs[c] = (q.hook c).restart ∧ (q.hook c).dest = none)
      ∧ (∀ k : Fin 32, a.zones[k] = p.arbiter.zones[k].restart) ∧ ∀ c : Fin 4, a.runs[c] = none ∧ a.claims[c] = none := by
  obtain ⟨hfall, hidle⟩ := Part.foldl_restartOrder craneList p
  refine ⟨craneList.foldl (fun p c => p.restartOrder c) p, _, _, rfl, hfall, fun c => (hidle c (mem_craneList c)).order,
    fun c => ⟨Part.restartedHooks_getElem _ c, (hidle c (mem_craneList c)).dest⟩, fun k => ?_,
    fun c => ⟨Arbiter.restart_run _ c, Arbiter.restart_claim _ c⟩⟩
  have hzone := hfall.zones k.val
  rw [Part.zone_fin, Part.zone_fin] at hzone
  exact (Arbiter.restart_zone _ k).trans hzone

theorem Engine.waiting_le {e : Engine} (h : e.queue.length ≤ 8) : e.waiting ≤ 12 := by
  have hcard := Finset.card_filter_le (Finset.univ : Finset (Fin 4)) fun c : Fin 4 => e.deferred[c].isSome
  have huniv : (Finset.univ : Finset (Fin 4)).card = 4 := rfl
  unfold Engine.waiting
  omega

theorem Part.changeMode_engine (p : Part) (m : Mode) (cause : Nat) : (p.changeMode m cause).engine = p.engine :=
  Part.notify_engine ..

theorem Part.ok_mode (p : Part) (f : Frame) (data : List Byte) : (p.ok f data).mgmt.mode = p.mgmt.mode :=
  Part.answerFrame_mode ..

theorem Part.ok_engine (p : Part) (f : Frame) (data : List Byte) : (p.ok f data).engine = p.engine :=
  Part.answerFrame_engine ..

/-- What a restart has come to once the configured cranes are stopped, before the mode changes (R191). -/
theorem Part.halted_form (p : Part) (hqueue : p.engine.queue.length ≤ 8) :
    ∃ (q r : Part), p.OrdersFall q ∧ p.halted = r.configured.foldl (fun p c => p.requestStop c .startup none) r
      ∧ r.tracker = q.tracker ∧ r.gate = q.gate ∧ (∀ c, r.order c = none)
      ∧ (∀ c, r.hook c = (q.hook c).restart ∧ (q.hook c).dest = none)
      ∧ (∀ k : Fin 32, r.arbiter.zones[k] = p.arbiter.zones[k].restart) ∧ (∀ c, r.run c = none ∧ r.claim c = none)
      ∧ r.engine.queue = [] ∧ ∀ c : Fin 4, r.engine.deferred[c] = none := by
  obtain ⟨q, hs, a, hcleared, hfall, horders, hhooks, hzones, hruns⟩ := p.cleared_form
  have hengine : q.engine = p.engine := hfall.engine
  obtain ⟨hnoqueue, hnodeferred⟩ := Part.settleRequests_all 12 p.cleared (by
    rw [hcleared]
    exact Engine.waiting_le (hengine ▸ hqueue))
  obtain ⟨l, e, free, hsettled⟩ := Part.settleRequests_form 12 p.cleared
  rw [hcleared] at hsettled
  rw [hcleared, hsettled] at hnoqueue hnodeferred
  refine ⟨q, { q with hooks := hs, arbiter := a, link := l, engine := e, free := free }, hfall, ?_, rfl, rfl, horders, hhooks,
    hzones, hruns, hnoqueue, hnodeferred⟩
  rw [Part.halted, hcleared, hsettled]

/-- Settles O55. -/
theorem restartReturnsToStartup : Obligations.RestartReturnsToStartup := by
  unfold Obligations.RestartReturnsToStartup
  intro s f hreq hq hempty hqueue
  have hexec : exec .restart s = .next (s.withPart ((s.part.dropSup.halted.changeMode .startup 2).ok f [])) := by
    rw [exec_restart]
    refine State.act_eq hreq.1 ?_
    rw [served_of_request hreq rfl rfl (by simp [formFits, hempty])]
    rw [Part.settle_of_none s.part.dropSup hq, serveRestart_eq hempty]
  have hleaves : s.part.dropSup.Leaves ⟨False, False, False, False, False, False, False, False, True⟩
      ((s.part.dropSup.halted.changeMode .startup 2).ok f []) := by
    rw [← serveRestart_eq hempty]
    exact serveRestart_leaves f _ trivial
  have hsafe : s.part.dropSup.Safe ((s.part.dropSup.halted.changeMode .startup 2).ok f []) := by
    rw [← serveRestart_eq hempty]
    exact serveRestart_safe f _
  obtain ⟨q, before, hfall, hhalted, hbt, hbg, horders, hhooks, hzones, hruns, hnoqueue, hnodeferred⟩ :=
    s.part.dropSup.halted_form hqueue
  obtain ⟨honly, hreacts, hhas, hlatch⟩ := Part.foldl_requestStop_idle .startup before.configured before horders
  rw [← hhalted] at honly hreacts hhas hlatch
  have hlast : s.part.dropSup.halted.ReleasesOnly ((s.part.dropSup.halted.changeMode .startup 2).ok f []) :=
    (Part.changeMode_releasesOnly _ .startup 2).trans (Part.ok_releasesOnly _ f [])
  have hgate : ((s.part.dropSup.halted.changeMode .startup 2).ok f []).gate = s.part.dropSup.halted.gate :=
    (Part.answerFrame_gate ..).trans (Part.changeMode_gate _ _ _)
  have hall := honly.trans hlast
  have hmode : ((s.part.dropSup.halted.changeMode .startup 2).ok f []).mgmt.mode = .startup :=
    (Part.ok_mode _ f []).trans (Part.changeMode_mode _ _ _)
  have hsame : ((s.part.dropSup.halted.changeMode .startup 2).ok f []).engine = s.part.dropSup.halted.engine :=
    (Part.ok_engine _ f []).trans (Part.changeMode_engine _ _ _)
  obtain ⟨t, hnext, hpending, hpart⟩ := State.exists_next hexec
  refine ⟨t, hnext, hpending, ?_⟩
  rw [hpart]
  generalize (s.part.dropSup.halted.changeMode .startup 2).ok f [] = r at hleaves hsafe hlast hgate hall hmode hsame ⊢
  generalize s.part.dropSup.halted = halted at honly hreacts hhas hlatch hgate hsame
  have htracker : r.tracker = s.part.tracker := (hall.tracker.trans hbt).trans hfall.tracker
  have harbiter : r.arbiter = before.arbiter := hall.arbiter
  have hfinal : r.engine = before.engine := hsame.trans hreacts.engine
  have hhook : ∀ c, r.hook c = (q.hook c).restart := fun c => by
    rw [Part.hook, hall.hooks]
    exact (hhooks c).1
  have hentry : ∀ c, before.entry c = s.part.entry c := fun c =>
    congrArg (fun t : Tracker => t.entries[c]) (hbt.trans hfall.tracker)
  have hlatch' : ∀ c, r.latch c = halted.latch c :=
    fun c => by rw [Part.latch, hgate, ← Part.latch]
  have hstartup : ∀ c, (s.part.entry c).configured = true →
      (r.latch c).causes.startup = true := fun c hc => by
    have hc' := (congrArg CraneEntry.configured (hentry c)).trans hc
    rw [hlatch']
    exact hhas c ((mem_configured_iff _ c).2 hc') hc'
  refine ⟨hmode, fun c => ⟨?_, ?_, ?_⟩, fun k => ?_, fun c => ?_, ?_, fun c => ?_, hstartup, fun c hc => ?_,
    congrArg Tracker.entries htracker, congrArg Tracker.records htracker, hleaves.params.resolve_left id,
    hleaves.bays.resolve_left id, fun hfollow c hc => ?_, hleaves.entryPoints.resolve_left id, hleaves.blocks.resolve_left id,
    hleaves.geometry.resolve_left id, hleaves.routing.resolve_left id, hleaves.clock⟩
  · rw [Part.order, hall.orders]
    exact horders c
  · rw [Part.run, harbiter]
    exact (hruns c).1
  · rw [Part.claim, harbiter]
    exact (hruns c).2
  · rw [harbiter]
    exact hzones k
  · rw [hhook]
    have hbefore : (q.hook c).unbound = (s.part.hook c).unbound := hfall.hooks c
    have hstate := congrArg Hook.state hbefore
    have hcoil := congrArg Hook.coil hbefore
    have hactive := congrArg Hook.active hbefore
    refine ⟨?_, rfl, rfl, rfl, (hhooks c).2, hcoil, hactive⟩
    change (if (q.hook c).unbound.state = .lifting then HookState.gripped else (q.hook c).unbound.state) = _
    rw [hstate]
    rfl
  · rw [hfinal]
    exact hnoqueue
  · rw [hfinal]
    exact hnodeferred c
  · rw [hlatch', hlatch c ((congrArg CraneEntry.configured (hentry c)).trans hc)]
    exact congrArg (fun ls : Vector Latch 4 => ls[c]) ((congrArg Gate.latches hbg).trans hfall.latches)
  · have hline := hsafe.line c (hfollow c)
    rw [hline, CauseSet.any, hstartup c hc, Bool.or_true]

end Sys2Proof.Machine
end

section
/-! O38 and O39. RESERVE, UNRESERVE and SLOT_SET on a defined slot. -/

namespace Sys2Proof.Machine

/-- A management frame of the slot map that fits its form is served at once when no request waits (R118, R176). -/
theorem State.execSlots_eq {s : State} {i : Instr} {k : Kind} {f : Frame} {serve : Frame → Part → Part} {q : Part}
    (hi : exec i s = s.act fun p => p.manageSlots k anyForm serve) (hreq : s.Request k f) (hk : k.isManagement = true)
    (hq : s.Quiet) (hform : formFits k f.payload = true) (hserve : serve f s.part.dropSup = q) :
    exec i s = .next (s.withPart q) := by
  rw [hi]
  refine State.act_eq hreq.1 ?_
  rw [servedSlots_of_request hreq hk rfl hform _ hq, hserve]

theorem nextReservation_eq (n : Nat) : nextReservation n = if n < 65535 then n + 1 else 1 := by
  unfold nextReservation
  split_ifs <;> omega

/-- Settles O38. -/
theorem reserveTakesAFreeSlot : Obligations.ReserveTakesAFreeSlot := by
  unfold Obligations.ReserveTakesAFreeSlot
  intro s f i q slot hreq hq hread hslot m coil test r
  have hexec : ∀ p : Part, serveReserve f s.part.dropSup = p → exec .reserve s = .next (s.withPart p) := fun p h =>
    State.execSlots_eq (exec_reserve s) hreq rfl hq (by simp [formFits, hread]) h
  have hslot' : s.part.dropSup.slots.slot i = some slot := hslot
  refine ⟨fun hfree htest => hexec _ ?_, fun why hfree htest => hexec _ ?_, fun hnot => hexec _ ?_⟩
  · have htest' : s.part.dropSup.slots.placementTest slot coil (s.part.dropSup.slots.reservationLoad slot.geo.block) = none := htest
    simp only [serveReserve, hread, hslot', hfree]
    rw [htest']
    simp only [Part.makeReservation, nextReservation_eq]
    rfl
  · have htest' : s.part.dropSup.slots.placementTest slot coil (s.part.dropSup.slots.reservationLoad slot.geo.block) = some why :=
      htest
    simp only [serveReserve, hread, hslot', hfree]
    rw [htest']
    rfl
  · simp only [serveReserve, hread, hslot']
    cases hc : slot.contents with
    | free => exact absurd hc hnot
    | _ => rfl

/-- Settles O39. -/
theorem slotsAreFreedAndSet : Obligations.SlotsAreFreedAndSet := by
  unfold Obligations.SlotsAreFreedAndSet
  intro s f i slot hq hslot becomes
  have hslot' : s.part.dropSup.slots.slot i = some slot := hslot
  refine ⟨fun n r hreq hread hc => ?_, fun hset hreq => ?_⟩
  · have hexec : ∀ p : Part, serveUnreserve f s.part.dropSup = p → exec .unreserve s = .next (s.withPart p) := fun p h =>
      State.execSlots_eq (exec_unreserve s) hreq rfl hq (by simp [formFits, hread]) h
    refine ⟨fun hn => hexec _ ?_, fun h0 hr => hexec _ ?_⟩
    · simp only [serveUnreserve, hread, hslot', hc, hn, if_true]
      rfl
    · simp only [serveUnreserve, hread, hslot', hc, h0, hr, or_self, if_false]
      rfl
  · have hexec : ∀ (new : NewContents) (p : Part), readSlotSet f.payload = some (i, new) →
        serveSlotSet f s.part.dropSup = p → exec .slotSet s = .next (s.withPart p) := fun new p hread h =>
      State.execSlots_eq (exec_slotSet s) hreq rfl hq (by simp [formFits, hread]) h
    have hburied : s.part.dropSup.slots.buried i = s.part.slots.buried i := rfl
    refine ⟨fun hread hb => hexec _ _ hread ?_, fun hread hb => hexec _ _ hread ?_, fun new hread hnew hb => hexec _ _ hread ?_,
      fun coil hread hcheck => hexec _ _ hread ?_⟩
    · simp only [serveSlotSet, hread, hslot', hset, Bool.not_true, Bool.false_eq_true, if_false, hburied, hb]
      rfl
    · simp only [serveSlotSet, hread, hslot', hset, Bool.not_true, Bool.false_eq_true, if_false, hburied, hb]
      rfl
    · rcases hnew with rfl | rfl
      · simp only [serveSlotSet, hread, hslot', hset, Bool.not_true, Bool.false_eq_true, if_false, hburied, hb, if_true]
        rfl
      · simp only [serveSlotSet, hread, hslot', hset, Bool.not_true, Bool.false_eq_true, if_false, hburied, hb, if_true]
        rfl
    · have hcheck' : s.part.dropSup.slotSetCheck i slot coil = none := hcheck
      simp only [serveSlotSet, hread, hslot', hset, Bool.not_true, Bool.false_eq_true, if_false, hcheck']
      rfl

end Sys2Proof.Machine
end

section
/-! O42, O43, O46 and O47. How a table frame reaches its owner, and the tables written entry by entry. -/

namespace Sys2Proof.Machine

/-! ## The form of a table frame (R178) -/

theorem readTableWrite_length {payload : List Byte} {first : Nat} {es : List (List Byte)}
    (h : readTableWrite payload = .entries first es) : 4 ≤ payload.length := by
  by_contra hlen
  have hhead : readTableHead payload = none := if_neg hlen
  simp only [readTableWrite, hhead] at h
  exact TableWrite.noConfusion h

section
variable {payload : List Byte} {n first : Nat} {es : List (List Byte)}

theorem WritesTable.names (h : WritesTable payload n first es) : namesTable n payload = true := by
  obtain ⟨htable, hread⟩ := h
  simp only [namesTable, htable, readTableWrite_length hread, decide_true, beq_self_eq_true, Bool.and_self]

theorem WritesTable.fits (h : WritesTable payload n first es) : formFits .tableWrite payload = true := by
  simp only [formFits, h.2]
  rfl

end

theorem serveTable_of_writes {owner : Frame → Nat → List (List Byte) → Part → Part} {f : Frame} {n first : Nat}
    {es : List (List Byte)} (h : WritesTable f.payload n first es) (p : Part) : serveTable owner f p = owner f first es p := by
  simp only [serveTable, h.2]

/-- A table frame reaches its owner (R176, R178). -/
theorem State.execTable_eq {s : State} {i : Instr} {n first : Nat} {f : Frame} {es : List (List Byte)}
    {owner : Frame → Nat → List (List Byte) → Part → Part} {q : Part}
    (hi : exec i s = s.act fun p => p.manage .tableWrite (namesTable n) (serveTable owner)) (hreq : s.Request .tableWrite f)
    (hw : WritesTable f.payload n first es) (h : owner f first es s.part.dropSup = q) : exec i s = .next (s.withPart q) := by
  rw [hi]
  refine State.act_eq hreq.1 ?_
  rw [served_of_request hreq rfl hw.names hw.fits, serveTable_of_writes hw, h]

/-- A table frame reaches its owner when nothing waits at the slot map (R118, R176, R178). -/
theorem State.execSlotTable_eq {s : State} {i : Instr} {n first : Nat} {f : Frame} {es : List (List Byte)}
    {owner : Frame → Nat → List (List Byte) → Part → Part} {q : Part}
    (hi : exec i s = s.act fun p => p.manageSlots .tableWrite (namesTable n) (serveTable owner))
    (hreq : s.Request .tableWrite f) (hq : s.Quiet) (hw : WritesTable f.payload n first es)
    (h : owner f first es s.part.dropSup = q) : exec i s = .next (s.withPart q) := by
  rw [hi]
  refine State.act_eq hreq.1 ?_
  rw [servedSlots_of_request hreq rfl hw.names hw.fits _ hq, serveTable_of_writes hw, h]

/-! ## Entries with their indices (R178) -/

theorem numbered_eq {α : Type} (d : α) (first : Nat) (as : List α) :
    numbered first as = (List.range' first as.length).map fun i => (i, as.getD (i - first) d) := by
  induction as generalizing first with
  | nil => rfl
  | cons a as ih =>
    rw [numbered, ih, List.length_cons, List.range'_succ, List.map_cons, Nat.sub_self, List.getD_cons_zero]
    refine congrArg (List.cons (first, a)) (List.map_congr_left fun i hi => ?_)
    obtain ⟨k, _, rfl⟩ := List.mem_range'.1 hi
    rw [show first + 1 + 1 * k - first = (first + 1 + 1 * k - (first + 1)) + 1 by omega, List.getD_cons_succ]

/-- Every entry of a frame is in range. -/
theorem readAll_numbered {α : Type} {read : Nat → List Byte → Option α} {vs : Nat → α} {first : Nat} {es : List (List Byte)}
    (h : ∀ j (hj : j < es.length), read (first + j) es[j] = some (vs (first + j))) :
    readAll read (numbered first es) = .ok ((List.range' first es.length).map fun i => (i, vs i)) := by
  induction es generalizing first with
  | nil => rfl
  | cons e es ih =>
    have hhead : read first e = some (vs first) := h 0 (Nat.succ_pos _)
    have htail := ih (first := first + 1) fun j hj => by
      have := h (j + 1) (Nat.succ_lt_succ hj)
      rw [show first + (j + 1) = first + 1 + j by omega] at this
      exact this
    simp only [numbered, readAll, hhead, htail, List.length_cons, List.range'_succ, List.map_cons]

theorem mem_range'_iff {i first n : Nat} : i ∈ List.range' first n ↔ first ≤ i ∧ i < first + n := by
  rw [List.mem_range'_1]

/-- A vector whose entries from one index on are replaced. -/
theorem foldl_set_range' {α : Type} {N : Nat} (v : Vector α N) (f : Nat → α) (first n : Nat)
    (g : Vector α N → Nat → Vector α N) (hg : ∀ v (k : Nat) (hk : k < N), first ≤ k → k < first + n → g v k = v.set k (f k))
    (h : ∀ j < n, first + j < N) :
    (List.range' first n).foldl g v =
      Vector.ofFn fun k : Fin N => if first ≤ k.val ∧ k.val < first + n then f k.val else v[k] := by
  induction n with
  | zero =>
    refine Vector.ext fun i hi => ?_
    rw [Vector.getElem_ofFn, if_neg (by simp only []; omega)]
    rfl
  | succ n ih =>
    rw [List.range'_concat, List.foldl_append, ih (fun v k hk h1 h2 => hg v k hk h1 (by omega)) fun j hj => h j (by omega),
      List.foldl_cons, List.foldl_nil, Nat.one_mul, hg _ _ (h n (Nat.lt_succ_self n)) (by omega) (by omega)]
    refine Vector.ext fun i hi => ?_
    rw [Vector.getElem_set]
    simp only [Vector.getElem_ofFn]
    by_cases hi : first + n = i
    · rw [if_pos hi, if_pos (by omega), hi]
    · rw [if_neg hi]
      exact if_congr (by omega) rfl rfl

/-- One part of a state changed step by step. -/
theorem foldl_through {α β γ : Type} (put : β → γ → β) (get : β → γ) (g : γ → α → γ) (f : β → α → β)
    (hf : ∀ b c a, f (put b c) a = put b (g c a)) (hget : ∀ b, put b (get b) = b) (l : List α) (b : β) :
    l.foldl f b = put b (l.foldl g (get b)) := by
  have hgeneral : ∀ c, l.foldl f (put b c) = put b (l.foldl g c) := by
    induction l with
    | nil => exact fun _ => rfl
    | cons a l ih =>
      intro c
      rw [List.foldl_cons, hf, ih, List.foldl_cons]
  rw [← hgeneral, hget]

/-! ## O42 -/

theorem ownerStartup_of_ok {α : Type} {read : Nat → List Byte → Option α} {apply : List (Nat × α) → Part → Part} {f : Frame}
    {first : Nat} {es : List (List Byte)} {p : Part} {vs : Nat → α} (hmode : p.mgmt.mode = .startup)
    (h : ∀ j (hj : j < es.length), read (first + j) es[j] = some (vs (first + j))) :
    ownerStartup read apply f first es p = (apply ((List.range' first es.length).map fun i => (i, vs i)) p).ok f [] := by
  have hstartup : ¬ p.mgmt.mode ≠ .startup := not_not_intro hmode
  simp only [ownerStartup, if_neg hstartup, readAll_numbered h]

theorem readZoneEntry_lt {i : Nat} {b : List Byte} {e : ZoneEntry} (h : readZoneEntry i b = some e) : i < 32 := by
  by_contra hi
  have hnone : readZoneEntry i b = none := if_neg fun hall => hi hall.1
  rw [hnone] at h
  cases h

theorem readEntryPoint_lt {i : Nat} {b : List Byte} {e : EntryPoint} (h : readEntryPoint i b = some e) : i < 4 := by
  by_contra hi
  have hnone : readEntryPoint i b = none := if_neg fun hall => hi hall.1
  rw [hnone] at h
  cases h

/-- The part with its entry points replaced. -/
def Part.withEntryPoints (p : Part) (es : Vector EntryPoint 4) : Part := { p with gate := { p.gate with entryPoints := es } }

/-- Settles O42. -/
theorem zoneAndEntryTablesAreWritten : Obligations.ZoneAndEntryTablesAreWritten := by
  unfold Obligations.ZoneAndEntryTablesAreWritten
  intro s f first es hreq hmode
  refine ⟨fun zs hw hread => State.execTable_eq (exec_tableWriteZone s) hreq hw ?_, fun ps hw hread =>
    State.execTable_eq (exec_tableWriteEntry s) hreq hw ?_⟩
  · rw [ownerStartup_of_ok (p := s.part.dropSup) hmode hread]
    refine congrArg (fun q : Part => q.ok f []) ?_
    have hlt : ∀ k ∈ List.range' first es.length, k < 32 := by
      intro k hk
      obtain ⟨hle, hk⟩ := mem_range'_iff.1 hk
      have hj := readZoneEntry_lt (hread (k - first) (by omega))
      omega
    rw [List.foldl_map]
    rw [Part.foldl_zones (g := fun k => s.part.arbiter.zones[k].withEntry (zs k.val)) s.part.dropSup (List.range' first es.length)
      List.nodup_range' hlt ?_]
    · simp only [mem_range'_iff]
      rfl
    · intro zones k _ hk
      change ((s.part.dropSup.withZones zones).setZone k.val (((s.part.dropSup.withZones zones).zone k.val).withEntry (zs k.val))) = _
      rw [Part.withZones_zone, hk, Part.setZone_eq_withZones]
      rfl
  · rw [ownerStartup_of_ok (p := s.part.dropSup) hmode hread]
    refine congrArg (fun q : Part => q.ok f []) ?_
    rw [List.foldl_map]
    rw [foldl_through Part.withEntryPoints (fun p => p.gate.entryPoints)
      (fun v i => (craneOf i).elim v fun k => v.set k (ps i)) _ (fun p v i => ?_) (fun _ => rfl)]
    · rw [foldl_set_range' _ ps first es.length _ (fun v k hk _ _ => ?_) fun j hj => readEntryPoint_lt (hread j hj)]
      · rfl
      · rw [craneOf, dif_pos hk]
        rfl
    · unfold applyEntryPoint
      cases craneOf i <;> rfl

/-! ## O43 -/

theorem readBlock_fst {i : Nat} {e : List Byte} {x : Fin 8 × Block} (h : readBlock i e = some x) : x.1.val = i := by
  unfold readBlock at h
  split at h
  · split at h
    · cases h
      rfl
    · cases h
  · cases h

theorem Part.blockFailure_of_sound {p : Part} {l : List (Nat × List Byte)}
    (h : ∀ x ∈ l, ∃ k b, readBlock x.1 x.2 = some (k, b) ∧ p.blockCheck k b = none) : p.blockFailure l = none := by
  induction l with
  | nil => rfl
  | cons x l ih =>
    obtain ⟨k, b, hread, hcheck⟩ := h x List.mem_cons_self
    obtain ⟨i, e⟩ := x
    rw [Part.blockFailure, hread]
    simp only [hcheck]
    exact ih fun y hy => h y (List.mem_cons_of_mem _ hy)

theorem Part.blockCheck_eq_none {p : Part} {k : Fin 8} {b : Block}
    (hdef : p.mgmt.mode = .startup ∨ b.defined = p.slots.blocks[k].defined)
    (hused : p.slots.blocks[k].defined = true → b.defined = true ∨ p.slots.blockUsed k = false)
    (hlimit : p.slots.committedSum k ≤ b.limit) : p.blockCheck k b = none := by
  have h1 : ¬ (p.mgmt.mode ≠ .startup ∧ b.defined ≠ p.slots.blocks[k].defined) := by
    rintro ⟨hm, hd⟩
    exact hdef.elim hm hd
  have h2 : (p.slots.blocks[k].defined && !b.defined && p.slots.blockUsed k) = false := by
    cases hold : p.slots.blocks[k].defined with
    | false => rfl
    | true => rcases hused hold with h | h <;> simp [h]
  simp only [Part.blockCheck, if_neg h1, h2, Bool.false_eq_true, if_false, if_neg (Nat.not_lt.2 hlimit)]

/-- The slot map with its block table replaced. -/
def SlotMap.withBlocks (m : SlotMap) (bs : Vector Block 8) : SlotMap := { m with blocks := bs }

/-- The part with its routing map replaced. -/
def Part.withRouting (p : Part) (r : Vector Byte 8) : Part := { p with engine := { p.engine with routing := r } }

theorem risingPoints_of_pairwise {points : List CalPoint} (h : points.Pairwise fun a b => a.count < b.count ∧ a.kg ≤ b.kg) :
    risingPoints points = true := by
  induction points with
  | nil => rfl
  | cons a l ih =>
    obtain ⟨ha, hl⟩ := List.pairwise_cons.1 h
    cases l with
    | nil => rfl
    | cons b rest =>
      obtain ⟨hcount, hkg⟩ := ha b List.mem_cons_self
      rw [risingPoints, ih hl]
      simp [hcount, hkg]

/-- A frame for the slot map waits behind the requests there (R118). -/
theorem waits_of_request {s : State} {k : Kind} {f : Frame} (h : s.Request k f) (hk : k.isManagement = true)
    {want : List Byte → Bool} (hw : want f.payload = true) (hform : formFits k f.payload = true) (serve : Frame → Part → Part)
    (hwait : s.part.slots.requests ≠ []) :
    s.part.manageSlots k want serve = (s.part.dropSup.hold f).queueTask (.management f) := by
  have hnot : s.part.dropSup.slots.requests.isEmpty = false := by
    cases hr : s.part.slots.requests with
    | nil => exact absurd hr hwait
    | cons t ts =>
      change s.part.slots.requests.isEmpty = false
      rw [hr]
      rfl
  rw [Part.manageSlots, served_of_request h hk hw hform]
  exact if_neg (by rw [hnot]; exact Bool.false_ne_true)

/-- Settles O43. -/
theorem blockGroupAndCalibrationAreWritten : Obligations.BlockGroupAndCalibrationAreWritten := by
  unfold Obligations.BlockGroupAndCalibrationAreWritten
  intro s f first es hreq
  refine ⟨fun bs hq hw hlen hread hsound => State.execSlotTable_eq (exec_tableWriteBlock s) hreq hq hw ?_, fun hwait hw => ?_,
    fun hq hw hlen => State.execSlotTable_eq (exec_tableWriteGroupMap s) hreq hq hw ?_, fun c hw hlen hrise => ?_⟩
  · have hblock : ∀ i (hi : i < 8), first ≤ i → i < first + es.length →
        readBlock i (es.getD (i - first) []) = some (⟨i, hi⟩, bs i) := by
      intro i hi hle hlt
      have hj := hread (i - first) (by omega)
      rw [show first + (i - first) = i by omega] at hj
      obtain ⟨x, hx, hxb⟩ := Option.map_eq_some_iff.1 hj
      rw [List.getD_eq_getElem es [] (by omega), hx]
      exact congrArg some (Prod.ext (Fin.ext (readBlock_fst hx)) hxb)
    have hfailure : s.part.dropSup.blockFailure (numbered first es) = none := by
      rw [numbered_eq []]
      refine Part.blockFailure_of_sound fun x hx => ?_
      obtain ⟨i, hi, rfl⟩ := List.mem_map.1 hx
      obtain ⟨hle, hlt⟩ := mem_range'_iff.1 hi
      have hi8 : i < 8 := by omega
      obtain ⟨hdef, hused, hlimit⟩ := hsound ⟨i, hi8⟩ hle hlt
      exact ⟨⟨i, hi8⟩, bs i, hblock i hi8 hle hlt, Part.blockCheck_eq_none hdef hused hlimit⟩
    simp only [ownerBlocks, hfailure]
    refine congrArg (fun m : SlotMap => ({ s.part.dropSup with slots := m } : Part).ok f []) ?_
    change (numbered first es).foldl (fun m e => applyBlock e.1 e.2 m) s.part.slots = _
    rw [numbered_eq [], List.foldl_map]
    rw [foldl_through SlotMap.withBlocks SlotMap.blocks
      (fun v i => (readBlock i (es.getD (i - first) [])).elim v fun x => v.set x.1 x.2) _ (fun m v i => ?_) (fun _ => rfl)]
    · rw [foldl_set_range' _ bs first es.length _ (fun v k hk hle hlt => ?_) fun j hj => by omega]
      · rfl
      · rw [hblock k hk hle hlt]
        rfl
    · unfold applyBlock
      cases readBlock i (es.getD (i - first) []) <;> rfl
  · rw [exec_tableWriteGroupMap]
    refine State.act_eq hreq.1 ?_
    rw [waits_of_request hreq rfl hw.names hw.fits _ hwait]
    rfl
  · have hle : ¬ 8 < first + es.length := by omega
    simp only [ownerGroupMap, if_neg hle]
    refine congrArg (fun q : Part => q.ok f []) ?_
    rw [numbered_eq [], List.foldl_map]
    rw [foldl_through Part.withRouting (fun p => p.engine.routing)
      (fun v i => if hi : i < 8 then v.set i (BitVec.ofNat 8 (field (es.getD (i - first) []) 0 1)) else v) _
      (fun p v i => ?_) (fun _ => rfl)]
    · rw [foldl_set_range' _ (fun i => BitVec.ofNat 8 (field (es.getD (i - first) []) 0 1)) first es.length _
        (fun v k hk _ _ => dif_pos hk) fun j hj => by omega]
      rfl
    · unfold applyRouting
      split <;> rfl
  · have hexec : ∀ q : Part, ownerCalibration f c.val es s.part.dropSup = q → exec .tableWriteCalibration s = .next (s.withPart q) :=
      fun q h => State.execTable_eq (exec_tableWriteCalibration s) hreq hw h
    have hpoints : ((es.map readCalPoint).length < 2 || !risingPoints (es.map readCalPoint)) = false := by
      rw [risingPoints_of_pairwise hrise, List.length_map, decide_eq_false (Nat.not_lt.2 hlen)]
      rfl
    have howner : ownerCalibration f c.val es s.part.dropSup =
        (let p := s.part.dropSup.setHook c { s.part.hook c with staged := some (es.map readCalPoint) }
         if (p.hook c).state = .empty then p.activateStaged c else p).ok f [] := by
      simp only [ownerCalibration, craneOf_val, hpoints, Bool.false_eq_true, if_false]
      rfl
    have hhook : ((s.part.dropSup.setHook c { s.part.hook c with staged := some (es.map readCalPoint) }).hook c) =
        { s.part.hook c with staged := some (es.map readCalPoint) } := Part.setHook_hook ..
    refine ⟨fun hempty => hexec _ ?_, fun hother => hexec _ ?_⟩
    · rw [howner]
      simp only [hhook, if_pos hempty]
      rw [Part.activateStaged, hhook, Part.setHook_setHook]
      rfl
    · rw [howner]
      simp only [hhook, if_neg hother]

end Sys2Proof.Machine
end

section
/-! O46 and O47. The parameter table, and the table writes that are refused. -/

namespace Sys2Proof.Machine

/-! ## The parameters by their numbers (R178) -/

/-- Of the fourteen parameters, a write of one changes that one. -/
theorem Params.get_put (q : Params) {i j : Nat} (v : Nat) (hi : i < 14) (hj : j < 14) :
    (q.put i v).get j = if j = i then v else q.get j := by
  by_cases hij : j = i
  · subst hij
    rw [if_pos rfl]
    by_cases h11 : j = 11
    · subst h11
      change (if v = 255 then none else some v : Option Nat).getD 255 = v
      split
      next h => exact h.symm
      next => rfl
    · interval_cases j <;> simp_all [Params.put, Params.get]
  · rw [if_neg hij]
    interval_cases i <;> interval_cases j <;> simp_all [Params.put, Params.get]

theorem Params.get_foldl_put (q : Params) (value : Nat → Nat) (first n : Nat) (h : ∀ j < n, first + j < 14) {i : Nat} (hi : i < 14) :
    ((List.range' first n).foldl (fun q k => q.put k (value k)) q).get i =
      if first ≤ i ∧ i < first + n then value i else q.get i := by
  induction n with
  | zero => rw [if_neg (by omega)]; rfl
  | succ n ih =>
    rw [List.range'_concat, List.foldl_append, List.foldl_cons, List.foldl_nil, Nat.one_mul,
      Params.get_put _ _ (h n (Nat.lt_succ_self n)) hi, ih fun j hj => h j (by omega)]
    by_cases hin : i = first + n
    · rw [if_pos hin, if_pos (by omega), hin]
    · rw [if_neg hin]
      exact if_congr (by omega) rfl rfl

theorem paramInRange_index {i v : Nat} (h : paramInRange i v = true) : i < 14 := by
  by_contra hi
  obtain ⟨k, rfl⟩ : ∃ k, i = k + 14 := ⟨i - 14, by omega⟩
  exact Bool.noConfusion h

theorem pieces_length (len n : Nat) (p : List Byte) : (pieces len n p).length = n := by
  induction n generalizing p with
  | zero => rfl
  | succ n ih => rw [pieces, List.length_cons, ih]

/-- The head of a table frame names its first index and the number of its entries (R178). -/
theorem readTableWrite_head {payload : List Byte} {first : Nat} {es : List (List Byte)}
    (h : readTableWrite payload = .entries first es) : field payload 1 2 = first ∧ field payload 3 1 = es.length := by
  have hhead : readTableHead payload = some ⟨field payload 0 1, field payload 1 2, field payload 3 1⟩ :=
    if_pos (readTableWrite_length h)
  simp only [readTableWrite, hhead] at h
  split at h
  · cases h
  · split at h
    · cases h
    · cases h
      exact ⟨rfl, (pieces_length _ _ _).symm⟩

/-- A TABLE_WRITE of the parameter table, or of no table, is one management frame (R127, R178). -/
theorem parameterFrame_eq {s : State} {f : Frame} (hreq : s.Request .tableWrite f) :
    s.part.parameterFrame =
      if writesPenalties f.payload then s.part.manageSlots .tableWrite writesPenalties serveParams
      else s.part.manage .tableWrite namesParams serveParams := by
  unfold Part.parameterFrame
  cases hwant : writesPenalties f.payload with
  | true => rw [managementHead_of_request hreq rfl _ hwant]; rfl
  | false =>
    have hnone : s.part.managementHead .tableWrite writesPenalties = none := by
      obtain ⟨_, hhead, _⟩ := hreq
      simp only [Part.managementHead, hhead, hwant, Bool.false_eq_true, and_false, if_false]
    rw [hnone]
    rfl

/-- A parameter write reaches its owner (R127, R178). -/
theorem parameterFrame_of_writes {s : State} {f : Frame} {first : Nat} {es : List (List Byte)} (hreq : s.Request .tableWrite f)
    (hq : s.Quiet ∨ first + es.length ≤ 11) (hw : WritesTable f.payload 9 first es) :
    s.part.parameterFrame = ownerParams f first es s.part.dropSup := by
  have hserve : serveParams f s.part.dropSup = ownerParams f first es s.part.dropSup := serveTable_of_writes hw _
  rw [parameterFrame_eq hreq]
  cases hwant : writesPenalties f.payload with
  | true =>
    have hquiet : s.Quiet := by
      refine hq.resolve_right fun hle => ?_
      obtain ⟨hfirst, hcount⟩ := readTableWrite_head hw.2
      simp only [writesPenalties, hfirst, hcount, Bool.and_eq_true, decide_eq_true_eq] at hwant
      omega
    rw [if_pos rfl, servedSlots_of_request hreq rfl hwant hw.fits _ hquiet, hserve]
  | false =>
    have hnames : namesParams f.payload = true := by simp [namesParams, hw.1]
    rw [if_neg Bool.false_ne_true, served_of_request hreq rfl hnames hw.fits, hserve]

/-- Settles O46. -/
theorem parametersAreWritten : Obligations.ParametersAreWritten := by
  unfold Obligations.ParametersAreWritten
  intro s f first es value hreq hq hw hrange hvalue hpair hlength
  have hlt : ∀ j < es.length, first + j < 14 := fun j hj => paramInRange_index (hrange j hj)
  have hget : ∀ (i : Nat), first ≤ i → i < first + es.length → value i = field (es.getD (i - first) []) 0 4 := by
    intro i hle hi
    have h14 := hlt (i - first) (by omega)
    rw [hvalue i (by omega), if_pos ⟨hle, hi⟩]
  have hread : ∀ j (hj : j < es.length), readParam (first + j) es[j] = some (value (first + j)) := by
    intro j hj
    rw [readParam, if_pos (hrange j hj), hget (first + j) (by omega) (by omega), Nat.add_sub_cancel_left,
      List.getD_eq_getElem es [] hj]
  generalize hp : (List.range' first es.length).foldl (fun q k => q.put k (value k)) s.part.params = q
  have hq' : ∀ i, i < 14 → q.get i = value i := by
    intro i hi
    rw [← hp, Params.get_foldl_put _ _ _ _ hlt hi]
    split
    next => rfl
    next hout => exact ((hvalue i hi).trans (if_neg hout)).symm
  have howner : ownerParams f first es s.part.dropSup = (s.part.dropSup.setParams q).ok f [] := by
    have hengage : q.engage = value 5 := hq' 5 (by decide)
    have hrelease : q.release = value 6 := hq' 6 (by decide)
    have hlen : q.length = value 0 := hq' 0 (by decide)
    have hfold : ((List.range' first es.length).map fun i => (i, value i)).foldl (fun q e => q.put e.1 e.2)
        s.part.dropSup.params = q := by
      rw [List.foldl_map]
      exact hp
    have hnot : ¬ (s.part.dropSup.mgmt.mode ≠ .startup ∧ q.length ≠ s.part.dropSup.params.length) := by
      rintro ⟨hm, hl⟩
      exact hlength.elim hm fun h => hl (hlen.trans h)
    simp only [ownerParams, readAll_numbered hread, hfold, if_neg hnot]
    rw [if_neg (by omega)]
  have hexec : exec .tableWriteParameters s = .next (s.withPart ((s.part.dropSup.setParams q).ok f [])) := by
    rw [exec_tableWriteParameters]
    exact State.act_eq hreq.1 ((parameterFrame_of_writes hreq hq hw).trans howner)
  have hwindow : q.window = value 3 := hq' 3 (by decide)
  by_cases hsame : value 3 = s.part.params.window
  · refine ⟨q, s.part.hooks, ?_, hq', fun c => by rw [if_pos hsame]; rfl⟩
    have hset : s.part.dropSup.setParams q = { s.part.dropSup with params := q } := if_pos (hwindow.trans hsame)
    rw [hexec, hset]
    rfl
  · refine ⟨q, Vector.ofFn fun c => { s.part.hooks[c] with acc := Accumulator.reset }, ?_, hq', fun c => ?_⟩
    · have hset : s.part.dropSup.setParams q = { s.part.dropSup with
          params := q, hooks := Vector.ofFn fun c => { s.part.hooks[c] with acc := Accumulator.reset } } :=
        if_neg fun h => hsame (hwindow.symm.trans h)
      rw [hexec, hset]
    · rw [if_neg hsame]
      exact Vector.getElem_ofFn c.isLt

/-! ## O47 -/

/-- A frame that does not fit its form is answered MALFORMED at once, whatever waits (R176). -/
theorem State.refused_of_misfit {s : State} {i : Instr} {k : Kind} {f : Frame} {want : List Byte → Bool}
    {serve : Frame → Part → Part} (hreq : s.Request k f) (hk : k.isManagement = true) (hwant : want f.payload = true)
    (hform : formFits k f.payload = false) (hi : exec i s = s.act fun _ => s.part.manage k want serve) :
    exec i s = .next (s.withPart (s.part.dropSup.answerFrame f .refused (some .malformed) [])) := by
  rw [hi]
  refine State.act_eq hreq.1 ?_
  rw [manage_of_request hreq hk want hwant, hform]
  rfl

theorem State.act_congr {s : State} {g h : Part → Part} (hgh : g s.part = h s.part) : s.act g = s.act h := by
  unfold State.act
  rw [hgh]

/-- A TABLE_READ is one management frame, which waits when it reads a table of the slot map (R118, R179). -/
theorem tableReadFrame_eq {s : State} {f : Frame} (hreq : s.Request .tableRead f) :
    s.part.tableReadFrame =
      if readsSlots f.payload then s.part.manageSlots .tableRead readsSlots serveTableRead
      else s.part.manage .tableRead anyForm serveTableRead := by
  unfold Part.tableReadFrame
  cases hwant : readsSlots f.payload with
  | true => rw [managementHead_of_request hreq rfl _ hwant]; rfl
  | false =>
    have hnone : s.part.managementHead .tableRead readsSlots = none := by
      obtain ⟨_, hhead, _⟩ := hreq
      simp only [Part.managementHead, hhead, hwant, Bool.false_eq_true, and_false, if_false]
    rw [hnone]
    rfl

/-- A kind of exactForms asks for its one length (R176, log 7). -/
theorem formFits_of_length {k : Kind} {n : Nat} {i : Instr} (h : (i, k, n) ∈ exactForms) {payload : List Byte}
    (hlen : payload.length ≠ n) : formFits k payload = false := by
  simp only [exactForms, List.mem_cons, Prod.mk.injEq, List.not_mem_nil, or_false] at h
  rcases h with h | h | h | h | h | h | h | h | h | h | h | h | h <;> obtain ⟨_, rfl, rfl⟩ := h <;>
    simp [formFits, readAllocate, readReserve, readUnreserve, readHold, readMask, readOne, hlen]
  exact List.ne_nil_of_length_pos (Nat.pos_of_ne_zero hlen)

theorem Part.manageSlots_eq (k : Kind) (want : List Byte → Bool) (serve : Frame → Part → Part) (p : Part) :
    p.manageSlots k want serve = p.manage k want fun f p =>
      if p.slots.requests.isEmpty then serve f p else (p.hold f).queueTask (.management f) := rfl

/-- The frame of each kind of exactForms is one management frame of its kind (R176). -/
theorem exec_of_exactForm {s : State} {f : Frame} {i : Instr} {k : Kind} {n : Nat} (h : (i, k, n) ∈ exactForms)
    (hreq : s.Request k f) (hlen : f.payload.length ≠ n) :
    k.isManagement = true ∧ ∃ (want : List Byte → Bool) (serve : Frame → Part → Part), want f.payload = true
      ∧ exec i s = s.act fun _ => s.part.manage k want serve := by
  simp only [exactForms, List.mem_cons, Prod.mk.injEq, List.not_mem_nil, or_false] at h
  rcases h with h | h | h | h | h | h | h | h | h | h | h | h | h <;> obtain ⟨rfl, rfl, rfl⟩ := h <;> refine ⟨rfl, ?_⟩
  · cases hslots : readsSlots f.payload with
    | true => exact ⟨readsSlots, _, hslots, State.act_congr (by rw [tableReadFrame_eq hreq, hslots, if_pos rfl, Part.manageSlots_eq])⟩
    | false => exact ⟨anyForm, _, rfl, State.act_congr (by rw [tableReadFrame_eq hreq, hslots]; rfl)⟩
  · have hnone : s.part.heldAllocate = none := by
      obtain ⟨_, _, _, _, _, hheld, _⟩ := hreq
      rw [Part.heldAllocate, hheld]
      rfl
    exact ⟨anyForm, _, rfl, State.act_congr (by rw [Part.allocateFrame, hnone])⟩
  · exact ⟨anyForm, _, rfl, exec_reserve s⟩
  · exact ⟨anyForm, _, rfl, exec_unreserve s⟩
  · exact ⟨anyForm, _, rfl, exec_hold s⟩
  · exact ⟨anyForm, _, rfl, exec_unhold s⟩
  · exact ⟨anyForm, _, rfl, exec_block s⟩
  · exact ⟨anyForm, _, rfl, exec_unblock s⟩
  · exact ⟨anyForm, _, rfl, exec_planClear s⟩
  · exact ⟨anyForm, _, rfl, exec_bayAck s⟩
  · exact ⟨anyForm, _, rfl, exec_stopRelease s⟩
  · exact ⟨asksOther, _, by simp [asksOther, asksMaintenance, readOne, hlen], exec_modeRun s⟩
  · exact ⟨anyForm, _, rfl, exec_restart s⟩

/-- A table frame reaches its owner once nothing waits that the owner might ask (R118, R176, R178). -/
theorem State.execAwaitTable_eq {s : State} {i : Instr} {n first : Nat} {f : Frame} {es : List (List Byte)}
    {owner : Frame → Nat → List (List Byte) → Part → Part} {q : Part}
    (hi : exec i s = s.act fun p => p.manage .tableWrite (namesTable n) fun f p => serveTable owner f p.await)
    (hreq : s.Request .tableWrite f) (hq : s.Quiet) (hw : WritesTable f.payload n first es)
    (h : owner f first es s.part.dropSup = q) : exec i s = .next (s.withPart q) := by
  rw [hi]
  refine State.act_eq hreq.1 ?_
  rw [served_of_request hreq rfl hw.names hw.fits, dropSup_await hq, serveTable_of_writes hw, h]

theorem ownerStartup_of_other {α : Type} {read : Nat → List Byte → Option α} {apply : List (Nat × α) → Part → Part} {f : Frame}
    {first : Nat} {es : List (List Byte)} {p : Part} (h : p.mgmt.mode ≠ .startup) :
    ownerStartup read apply f first es p = p.wrongMode f := if_pos h

/-- A TABLE_WRITE that names a table is one management frame of it (R176, R178). -/
theorem exec_of_tableWrite {s : State} {f : Frame} {i : Instr} {n : Nat}
    (h : (i, n) ∈ ([(.tableWriteCrane, 1), (.tableWriteZone, 2), (.tableWriteEntry, 3), (.tableWriteBlock, 4),
      (.tableWriteSlotGeometry, 5), (.tableWriteGroupMap, 6), (.tableWriteCalibration, 7), (.tableWriteBay, 8),
      (.tableWriteParameters, 9)] : List (Instr × Nat)))
    (hreq : s.Request .tableWrite f) (hlen : 4 ≤ f.payload.length) (htable : field f.payload 0 1 = n) :
    ∃ (want : List Byte → Bool) (serve : Frame → Part → Part), want f.payload = true
      ∧ exec i s = s.act fun _ => s.part.manage .tableWrite want serve := by
  have hnames : namesTable n f.payload = true := by simp [namesTable, hlen, htable]
  simp only [List.mem_cons, Prod.mk.injEq, List.not_mem_nil, or_false] at h
  rcases h with h | h | h | h | h | h | h | h | h <;> obtain ⟨rfl, rfl⟩ := h
  · exact ⟨_, _, hnames, exec_tableWriteCrane s⟩
  · exact ⟨_, _, hnames, exec_tableWriteZone s⟩
  · exact ⟨_, _, hnames, exec_tableWriteEntry s⟩
  · exact ⟨_, _, hnames, exec_tableWriteBlock s⟩
  · exact ⟨_, _, hnames, exec_tableWriteSlotGeometry s⟩
  · exact ⟨_, _, hnames, exec_tableWriteGroupMap s⟩
  · exact ⟨_, _, hnames, exec_tableWriteCalibration s⟩
  · exact ⟨_, _, hnames, exec_tableWriteBay s⟩
  · have hparams : namesParams f.payload = true := by simp [namesParams, htable]
    cases hpen : writesPenalties f.payload with
    | true => exact ⟨_, _, hpen, State.act_congr (by rw [parameterFrame_eq hreq, hpen, if_pos rfl, Part.manageSlots_eq])⟩
    | false => exact ⟨_, _, hparams, State.act_congr (by rw [parameterFrame_eq hreq, hpen]; rfl)⟩

/-- Settles O47. -/
theorem tableWritesAreRefused : Obligations.TableWritesAreRefused := by
  unfold Obligations.TableWritesAreRefused
  refine ⟨fun s f form hmem hreq hlen => ?_, fun s f hreq hq => ⟨fun form hmem first es hw hmode => ?_, fun hlen htable => ?_,
    fun form hmem hlen htable hbad => ?_⟩⟩
  · obtain ⟨hk, want, serve, hwant, hexec⟩ := exec_of_exactForm hmem hreq hlen
    exact State.refused_of_misfit hreq hk hwant (formFits_of_length hmem hlen) hexec
  · have hmode' : s.part.dropSup.mgmt.mode ≠ .startup := hmode
    simp only [List.mem_cons, List.not_mem_nil, or_false] at hmem
    rcases hmem with rfl | rfl | rfl | rfl | rfl
    · exact State.execAwaitTable_eq (exec_tableWriteCrane s) hreq hq hw (ownerStartup_of_other hmode')
    · exact State.execTable_eq (exec_tableWriteZone s) hreq hw (ownerStartup_of_other hmode')
    · exact State.execTable_eq (exec_tableWriteEntry s) hreq hw (ownerStartup_of_other hmode')
    · exact State.execSlotTable_eq (exec_tableWriteSlotGeometry s) hreq hq hw (if_pos hmode')
    · exact State.execAwaitTable_eq (exec_tableWriteBay s) hreq hq hw (if_pos hmode')
  · have hhead : readTableHead f.payload = some ⟨field f.payload 0 1, field f.payload 1 2, field f.payload 3 1⟩ := if_pos hlen
    have hform : tableForm (field f.payload 0 1) = none := by
      rcases htable with h | h
      · rw [h]
        rfl
      · obtain ⟨k, hk⟩ : ∃ k, field f.payload 0 1 = k + 10 := ⟨field f.payload 0 1 - 10, by omega⟩
        rw [hk]
        rfl
    have hread : readTableWrite f.payload = .unknown := by simp only [readTableWrite, hhead, hform]
    have hfits : formFits .tableWrite f.payload = true := by
      rw [formFits, hread]
      rfl
    have hpen : writesPenalties f.payload = false := by
      have hnot : field f.payload 0 1 ≠ 9 := by omega
      simp [writesPenalties, namesTable, hnot]
    have hnames : namesParams f.payload = true := by
      have hnot : ¬ (1 ≤ field f.payload 0 1 ∧ field f.payload 0 1 ≤ 8) := by omega
      simp only [namesParams, Bool.or_eq_true, Bool.not_eq_true', Bool.and_eq_false_iff, decide_eq_false_iff_not,
        decide_eq_true_eq]
      omega
    rw [exec_tableWriteParameters]
    refine State.act_eq hreq.1 ?_
    rw [parameterFrame_eq hreq, hpen, if_neg Bool.false_ne_true, served_of_request hreq rfl hnames hfits, serveParams, serveTable,
      hread]
    rfl
  · obtain ⟨want, serve, hwant, hexec⟩ := exec_of_tableWrite hmem hreq hlen htable
    refine State.refused_of_misfit hreq rfl hwant ?_ hexec
    rw [formFits, hbad]
    rfl

end Sys2Proof.Machine
end

section
/-! O48 and O49. TABLE_READ and the queries. -/

namespace Sys2Proof.Machine

theorem Part.entriesFrom_eq (p : Part) (table n first : Nat) :
    p.entriesFrom table n first = ((List.range' first n).map fun i => p.entryBytes table i).flatten := by
  induction n generalizing first with
  | zero => rfl
  | succ n ih => rw [Part.entriesFrom, ih, List.range'_succ, List.map_cons, List.flatten_cons]

theorem le_one (n : Nat) : le 1 n = [BitVec.ofNat 8 n] := rfl

/-- A TABLE_READ is served at once when nothing waits at the slot map (R118, R179). -/
theorem State.execRead_eq {s : State} {f : Frame} {q : Part} (hreq : s.Request .tableRead f) (hq : s.Quiet)
    (hlen : f.payload.length = 4) (h : serveTableRead f s.part.dropSup = q) : exec .tableRead s = .next (s.withPart q) := by
  have hfits : formFits .tableRead f.payload = true := decide_eq_true hlen
  rw [exec_tableRead]
  refine State.act_eq hreq.1 ?_
  rw [tableReadFrame_eq hreq]
  cases hslots : readsSlots f.payload with
  | true => rw [if_pos rfl, servedSlots_of_request hreq rfl hslots hfits _ hq, h]
  | false => rw [if_neg Bool.false_ne_true, served_of_request hreq rfl rfl hfits, h]

/-- Settles O48. -/
theorem tableReadReturnsEntries : Obligations.TableReadReturnsEntries := by
  unfold Obligations.TableReadReturnsEntries
  intro s f table first count len most hreq hq hlen hhead hform
  have hserve : serveTableRead f s.part.dropSup =
      if first < tableSize table then s.part.dropSup.ok f (s.part.dropSup.readData ⟨table, first, count⟩ len)
      else s.part.dropSup.refuse f .badValue [] := by
    have hnot : ¬ f.payload.length ≠ 4 := not_not_intro hlen
    simp only [serveTableRead, if_neg hnot, hhead, hform]
  refine ⟨fun hlt h7 => State.execRead_eq hreq hq hlen ?_, fun c h7 hfirst => State.execRead_eq hreq hq hlen ?_,
    fun hle => State.execRead_eq hreq hq hlen ?_⟩
  · have hdata : s.part.dropSup.readData ⟨table, first, count⟩ len =
        le 1 (min count (min (tableSize table - first) (55 / len)))
          ++ s.part.dropSup.entriesFrom table (min count (min (tableSize table - first) (55 / len))) first := if_neg h7
    rw [hserve, if_pos hlt, hdata, le_one, Part.entriesFrom_eq]
    rfl
  · subst h7 hfirst
    have hlt : c.val < tableSize 7 := c.isLt
    rw [hserve, if_pos hlt, Part.readData, if_pos rfl, craneOf_val]
    rfl
  · rw [hserve, if_neg (Nat.not_lt.2 hle)]
    rfl

/-! ## O49 -/

/-- The form of a query's answer (R180, log 8). -/
theorem answerQuery_eq (f : Frame) (q : QueryRequest) (bytes : List Byte) (clear : Part → Part) (p : Part) :
    answerQuery f q bytes clear p =
      if q.part < max 1 ((bytes.length + 53) / 54) then (if q.clear then clear p else p).ok f (answerData bytes q.part)
      else p.answerFrame f .refused (some .badValue) [] := by
  have hcount : partCount bytes = max 1 ((bytes.length + 53) / 54) := rfl
  unfold answerQuery
  rw [hcount]
  by_cases h : q.part < max 1 ((bytes.length + 53) / 54)
  · rw [if_pos h, if_neg (Nat.not_le.2 h)]
    rfl
  · rw [if_neg h, if_pos (Nat.not_lt.1 h)]
    rfl

theorem querySubject_of_some {α : Type} {subject : Nat → Option α} {bytes : Part → α → List Byte} {clear : Part → α → Part}
    {f : Frame} {q : QueryRequest} {a : α} (hread : readQuery f.payload = some q) (ha : subject q.subject = some a) (p : Part) :
    querySubject subject bytes clear f p = answerQuery f q (bytes p a) (fun p => clear p a) p := by
  simp only [querySubject, hread, ha]

theorem queryWhole_of_some {bytes : Part → List Byte} {clear : Part → Part} {f : Frame} {q : QueryRequest}
    (hread : readQuery f.payload = some q) (p : Part) : queryWhole bytes clear f p = answerQuery f q (bytes p) clear p := by
  simp only [queryWhole, hread]

section
variable {s : State} {f : Frame} {q : QueryRequest} {i : Instr} {want : List Byte → Bool} {serve : Frame → Part → Part} {p : Part}

theorem query_names {n : Nat} (hread : readQuery f.payload = some q) (hk : q.kind = n) : namesQuery n f.payload = true := by
  unfold readQuery at hread
  split at hread
  next hlen =>
    cases hread
    simp [namesQuery, hlen, ← hk]
  next => cases hread

theorem query_fits (hread : readQuery f.payload = some q) (hk : 1 ≤ q.kind ∧ q.kind ≤ 9) : formFits .query f.payload = true := by
  simp [formFits, hread, hk.1, hk.2]

theorem State.execQuery_eq (hi : exec i s = s.act fun p => p.manage .query want serve) (hreq : s.Request .query f)
    (hw : want f.payload = true) (hfits : formFits .query f.payload = true) (h : serve f s.part.dropSup = p) :
    exec i s = .next (s.withPart p) := by
  rw [hi]
  refine State.act_eq hreq.1 ?_
  rw [served_of_request hreq rfl hw hfits, h]

theorem State.execSlotQuery_eq (hi : exec i s = s.act fun p => p.manageSlots .query want serve) (hreq : s.Request .query f)
    (hq : s.Quiet) (hw : want f.payload = true) (hfits : formFits .query f.payload = true) (h : serve f s.part.dropSup = p) :
    exec i s = .next (s.withPart p) := by
  rw [hi]
  refine State.act_eq hreq.1 ?_
  rw [servedSlots_of_request hreq rfl hw hfits _ hq, h]

end

/-- Settles O49. -/
theorem queriesAreAnswered : Obligations.QueriesAreAnswered := by
  unfold Obligations.QueriesAreAnswered
  intro s f q hreq hq hread p answered
  have hfits : 1 ≤ q.kind → q.kind ≤ 9 → formFits .query f.payload = true := fun h1 h9 => query_fits hread ⟨h1, h9⟩
  have hnames : ∀ {n : Nat}, q.kind = n → namesQuery n f.payload = true := fun h => query_names hread h
  refine ⟨fun c hk hs => ?_, fun k hk hs => ?_, fun hk hs => ?_, fun hk => ?_, fun c hk hs => ?_, fun b hk hs => ?_, fun hk => ?_,
    fun hk => ?_, fun hk => ?_⟩
  · refine State.execQuery_eq (exec_queryCrane s) hreq (hnames hk) (hfits (by omega) (by omega)) ?_
    exact (querySubject_of_some hread (by rw [hs]; exact craneOf_val c) _).trans (answerQuery_eq ..)
  · refine State.execQuery_eq (exec_queryZone s) hreq (hnames hk) (hfits (by omega) (by omega)) ?_
    exact (querySubject_of_some hread (by rw [hs]; exact if_pos k.isLt) _).trans (answerQuery_eq ..)
  · refine State.execSlotQuery_eq (exec_querySlot s) hreq hq (hnames hk) (hfits (by omega) (by omega)) ?_
    exact (querySubject_of_some hread (if_pos hs) _).trans (answerQuery_eq ..)
  · refine State.execSlotQuery_eq (exec_queryBlockSums s) hreq hq (hnames hk) (hfits (by omega) (by omega)) ?_
    exact (queryWhole_of_some hread _).trans (answerQuery_eq ..)
  · refine State.execQuery_eq (exec_queryHook s) hreq (hnames hk) (hfits (by omega) (by omega)) ?_
    exact (querySubject_of_some hread (by rw [hs]; exact craneOf_val c) _).trans (answerQuery_eq ..)
  · refine State.execQuery_eq (exec_queryBay s) hreq (hnames hk) (hfits (by omega) (by omega)) ?_
    exact (querySubject_of_some hread (by rw [hs]; exact bayOf_val b) _).trans (answerQuery_eq ..)
  · refine State.execQuery_eq (exec_queryLink s) hreq (hnames hk) (hfits (by omega) (by omega)) ?_
    exact (queryWhole_of_some hread _).trans (answerQuery_eq ..)
  · refine State.execQuery_eq (exec_queryPart s) hreq (by simp [namesPart, hnames hk]) (hfits (by omega) (by omega)) ?_
    simp only [serveQueryPart, hread, if_pos hk]
    exact answerQuery_eq ..
  · refine State.execQuery_eq (exec_querySummary s) hreq (hnames hk) (hfits (by omega) (by omega)) ?_
    exact (queryWhole_of_some hread _).trans (answerQuery_eq ..)

end Sys2Proof.Machine
end

section
/-! O41. The crane table (R1, R2). -/

namespace Sys2Proof.Machine

/-- What the reset of a crane's hook leaves standing (R95). -/
structure Part.HookOnly (c : Fin 4) (p q : Part) : Prop where
  tracker : q.tracker = p.tracker
  arbiter : q.arbiter = p.arbiter
  params : q.params = p.params
  gate : q.gate = p.gate
  lines : q.lines = p.lines
  hook : ∀ d, d ≠ c → q.hook d = p.hook d

theorem Part.HookOnly.refl (c : Fin 4) (p : Part) : p.HookOnly c p := ⟨rfl, rfl, rfl, rfl, rfl, fun _ _ => rfl⟩

theorem Part.HookOnly.trans {c : Fin 4} {p q r : Part} (h : p.HookOnly c q) (k : q.HookOnly c r) : p.HookOnly c r :=
  ⟨k.tracker.trans h.tracker, k.arbiter.trans h.arbiter, k.params.trans h.params, k.gate.trans h.gate, k.lines.trans h.lines,
    fun d hd => (k.hook d hd).trans (h.hook d hd)⟩

theorem Part.HookOnly.of_ends {c : Fin 4} {p q : Part} (h : p.EndsOnly c q) (ha : q.arbiter = p.arbiter) (hg : q.gate = p.gate) :
    p.HookOnly c q := ⟨h.tracker, ha, h.params, hg, h.lines, h.hook⟩

section
variable (p : Part) (c : Fin 4)

theorem Part.setHook_hookOnly (h : Hook) : p.HookOnly c (p.setHook c h) :=
  .of_ends (p.setHook_endsOnly c h) rfl rfl

theorem Part.notify_hookOnly (k : NoticeKind) (a v1 v2 v3 : Nat) : p.HookOnly c (p.notify k a v1 v2 v3) :=
  .of_ends (p.notify_endsOnly c k a v1 v2 v3) (p.notify_arbiter ..) (p.notify_gate ..)

theorem Part.loseCoil_hookOnly (coil : Coil) (why : Reason) : p.HookOnly c (p.loseCoil c coil why) :=
  (p.setHook_hookOnly c _).trans (Part.notify_hookOnly _ c _ _ _ _ _)

theorem Part.clearSource_hookOnly : p.HookOnly c (p.clearSource c) :=
  .of_ends (p.clearSource_endsOnly c) (p.clearSource_arbiter c) (p.clearSource_gate c)

theorem Part.clearDest_hookOnly : p.HookOnly c (p.clearDest c) :=
  .of_ends (p.clearDest_endsOnly c) (p.clearDest_arbiter c) (p.clearDest_gate c)

theorem Part.reportEmptied_hookOnly : p.HookOnly c (p.reportEmptied c) := by
  obtain ⟨l, e, h⟩ := p.reportEmptied_form c
  rw [h]
  exact ⟨rfl, rfl, rfl, rfl, rfl, fun _ _ => rfl⟩

/-- The part as a crane's coil is lost with the crane (R95). -/
def Part.withoutCrane : Part :=
  match (p.hook c).state, (p.hook c).coil with
  | .weighed, some coil => p.loseCoil c coil .craneRemoved
  | _, _ => p

theorem Part.withoutCrane_hookOnly : p.HookOnly c (p.withoutCrane c) := by
  unfold Part.withoutCrane
  split
  · exact p.loseCoil_hookOnly c _ _
  · exact .refl c p

theorem Part.withoutCrane_tables :
    ((p.withoutCrane c).hook c).active = (p.hook c).active ∧ ((p.withoutCrane c).hook c).staged = (p.hook c).staged := by
  unfold Part.withoutCrane
  split
  · rw [Part.loseCoil_hook]
    exact ⟨rfl, rfl⟩
  · exact ⟨rfl, rfl⟩

theorem Part.resetHook_eq :
    p.resetHook c =
      ((((p.withoutCrane c).clearSource c).clearDest c).setHook c { Hook.reset with
        active := ((((p.withoutCrane c).clearSource c).clearDest c).hook c).active
        staged := ((((p.withoutCrane c).clearSource c).clearDest c).hook c).staged } |>.reportEmptied c).activateStaged c := rfl

/-- The hook of a crane that starts afresh: only its calibration tables stay, the staged one active (R76, R95). -/
theorem Part.resetHook_spec :
    p.HookOnly c (p.resetHook c)
      ∧ (p.resetHook c).hook c = { Hook.reset with active := (p.hook c).active, staged := (p.hook c).staged }.activate := by
  rw [p.resetHook_eq c]
  generalize hq : ((p.withoutCrane c).clearSource c).clearDest c = q
  have honly : p.HookOnly c q := by
    rw [← hq]
    exact (p.withoutCrane_hookOnly c).trans ((Part.clearSource_hookOnly _ c).trans (Part.clearDest_hookOnly _ c))
  have hreacts : (q.hook c).unbound = ((p.withoutCrane c).hook c).unbound := by
    rw [← hq]
    exact (((p.withoutCrane c).clearSource_reacts c).trans (Part.clearDest_reacts _ c)).hooks c
  obtain ⟨hactive, hstaged⟩ := p.withoutCrane_tables c
  have ha : (q.hook c).active = (p.hook c).active := (congrArg Hook.active hreacts).trans hactive
  have hs : (q.hook c).staged = (p.hook c).staged := (congrArg Hook.staged hreacts).trans hstaged
  rw [ha, hs]
  generalize hr : q.setHook c { Hook.reset with active := (p.hook c).active, staged := (p.hook c).staged } = r
  have hset : q.HookOnly c r := hr ▸ q.setHook_hookOnly c _
  refine ⟨honly.trans (hset.trans ((r.reportEmptied_hookOnly c).trans (Part.setHook_hookOnly _ c _))), ?_⟩
  obtain ⟨l, e, h⟩ := r.reportEmptied_form c
  have hhook : (r.reportEmptied c).hook c = r.hook c := by rw [h]; rfl
  rw [Part.activateStaged_hook, hhook, ← hr, Part.setHook_hook]

end

/-- The crane table's owner on one entry in range (R2). -/
theorem craneTable_of_writes {f : Frame} {c : Fin 4} {bytes : List Byte} {e : CraneEntry} {p : Part}
    (hmode : p.mgmt.mode = .startup) (hparse : parseCraneEntry bytes = some e) (hrange : e.inRange = true) :
    ownerStartup readCraneEntry (fun es p => es.foldl (fun p e => applyCraneEntry e.1 e.2 p) p) f c.val [bytes] p =
      (if e.configured = (p.entry c).configured then p.setEntry c e else p.craneChanged c e).ok f [] := by
  rw [ownerStartup_of_ok (vs := fun _ => e) hmode fun j hj => ?_]
  · refine congrArg (fun q : Part => q.ok f []) ?_
    change applyCraneEntry c.val e p = _
    simp only [applyCraneEntry, craneOf_val]
  · obtain rfl : j = 0 := Nat.lt_one_iff.1 hj
    simp only [readCraneEntry, Nat.add_zero, if_pos c.isLt, hparse, List.getElem_cons_zero, Option.filter_some, hrange, if_true]

/-- The part as a crane starts afresh, before it is stopped or its fault is cleared (R2). -/
def Part.craneFresh (p : Part) (c : Fin 4) (e : CraneEntry) : Part :=
  let p := (p.setEntry c e).setRecord c CraneRecord.reset
  let p := ((p.resetHook c).emptyLatch c).setOrder c none
  { p with tracker := { p.tracker with crossed := Vector.replicate 4 false } }

/-- A crane that starts afresh: its order, latch, line and hook, and what the other cranes keep (R2). -/
theorem Part.craneFresh_spec (p : Part) (c : Fin 4) (e : CraneEntry) :
    (p.craneFresh c e).tracker = ⟨p.tracker.entries.set c e, p.tracker.records.set c CraneRecord.reset, Vector.replicate 4 false⟩
      ∧ (p.craneFresh c e).arbiter = p.arbiter
      ∧ (p.craneFresh c e).order c = none ∧ (p.craneFresh c e).latch c = Latch.reset
      ∧ (p.craneFresh c e).lines.stop[c].commanded = false
      ∧ (p.craneFresh c e).hook c = { Hook.reset with active := (p.hook c).active, staged := (p.hook c).staged }.activate
      ∧ ∀ d, d ≠ c → (p.craneFresh c e).order d = p.order d ∧ (p.craneFresh c e).latch d = p.latch d
        ∧ (p.craneFresh c e).hook d = p.hook d := by
  obtain ⟨honly, hhook⟩ := ((p.setEntry c e).setRecord c CraneRecord.reset).resetHook_spec c
  generalize hq : ((p.setEntry c e).setRecord c CraneRecord.reset).resetHook c = q at honly hhook
  have hfresh : p.craneFresh c e = { (q.emptyLatch c).setOrder c none with
      tracker := { q.tracker with crossed := Vector.replicate 4 false } } := by
    rw [Part.craneFresh, hq]
    rfl
  rw [hfresh]
  refine ⟨?_, honly.arbiter, Part.setOrder_order _ c none, ?_, ?_, hhook, fun d hd => ⟨?_, ?_, honly.hook d hd⟩⟩
  · rw [honly.tracker]
    rfl
  · exact Part.setLatch_latch q c Latch.reset
  · change (q.lines.stop.set c (q.lines.stop[c].command false))[c].commanded = false
    rw [Fin.getElem_fin, Vector.getElem_set_self, OutLine.command_commanded]
  · have horder : q.order d = p.order d := by rw [Part.order, honly.gate]; rfl
    exact (Part.setOrder_order_ne (q.emptyLatch c) c d none hd).trans horder
  · have hlatch : q.latch d = p.latch d := by rw [Part.latch, honly.gate]; rfl
    exact (Part.setLatch_latch_ne q c d Latch.reset hd).trans hlatch

theorem Part.craneChanged_eq (p : Part) (c : Fin 4) (e : CraneEntry) :
    p.craneChanged c e =
      if e.configured then (p.craneFresh c e).requestStop c .startup none else (p.craneFresh c e).clearFault c.val := rfl

/-- A crane whose configured field changes (R2, R54, R67, R69, R95). -/
theorem Part.craneChanged_spec (p : Part) (c : Fin 4) (e : CraneEntry) :
    (p.craneChanged c e).tracker = ⟨p.tracker.entries.set c e, p.tracker.records.set c CraneRecord.reset, Vector.replicate 4 false⟩
      ∧ (p.craneChanged c e).arbiter = p.arbiter
      ∧ (p.craneChanged c e).order c = none
      ∧ (p.craneChanged c e).latch c = ⟨{ CauseSet.none with startup := e.configured }, BaySet.none⟩
      ∧ (p.craneChanged c e).lines.stop[c].commanded = e.configured
      ∧ (p.craneChanged c e).hook c = { Hook.reset with active := (p.hook c).active, staged := (p.hook c).staged }.activate
      ∧ ∀ d, d ≠ c → (p.craneChanged c e).order d = p.order d ∧ (p.craneChanged c e).latch d = p.latch d
        ∧ (p.craneChanged c e).hook d = p.hook d := by
  have hfresh := p.craneFresh_spec c e
  have hchanged := p.craneChanged_eq c e
  generalize p.craneFresh c e = q at hfresh hchanged
  obtain ⟨htracker, harbiter, horder, hlatch, hline, hhook, hrest⟩ := hfresh
  cases hconf : e.configured with
  | false =>
    rw [hchanged, hconf, if_neg Bool.false_ne_true]
    have hstop : (q.clearFault c.val).lines.stop[c].commanded = q.lines.stop[c].commanded := by
      simp [Part.clearFault, Lines.output, Lines.setOutput, c.isLt]
    exact ⟨htracker, harbiter, horder, hlatch, hstop.trans hline, hhook, hrest⟩
  | true =>
    rw [hchanged, hconf, if_pos rfl]
    have hentry : (q.entry c).configured = true := by
      rw [Part.entry, htracker]
      change (p.tracker.entries.set c e)[c].configured = true
      rw [Fin.getElem_fin, Vector.getElem_set_self, hconf]
    have hidle : q.activeOrder c = none := by
      rw [Part.activeOrder, horder]
      rfl
    have hnot : (q.latch c).causes.has .startup = false := by
      rw [hlatch]
      rfl
    have hstop := Part.requestStop_idle .startup none hidle
    have honly := q.requestStop_onlyCrane c .startup none
    obtain ⟨hnew, hasserted, _⟩ := q.requestStop_new c .startup none hentry hnot
    refine ⟨hstop.tracker.trans htracker, hstop.arbiter.trans harbiter, ?_, ?_, hasserted, ?_, fun d hd => ?_⟩
    · rw [Part.order, hstop.orders]
      exact horder
    · rw [hnew, hlatch]
      rfl
    · rw [Part.hook, hstop.hooks]
      exact hhook
    · obtain ⟨h1, h2, h3⟩ := hrest d hd
      exact ⟨(honly.order d hd).trans h1, (honly.latch d hd).trans h2, (honly.hook d hd).trans h3⟩

theorem Part.ok_gate (p : Part) (f : Frame) (data : List Byte) : (p.ok f data).gate = p.gate := Part.answerFrame_gate ..

theorem Part.ok_lines (p : Part) (f : Frame) (data : List Byte) : (p.ok f data).lines = p.lines := Part.answerFrame_lines ..

/-- Settles O41. -/
theorem craneTableIsWritten : Obligations.CraneTableIsWritten := by
  unfold Obligations.CraneTableIsWritten
  intro s f c bytes e hreq hq hmode hw hparse hrange
  have hmode' : s.part.dropSup.mgmt.mode = .startup := hmode
  have hexec : ∀ q : Part, (if e.configured = (s.part.entry c).configured then s.part.dropSup.setEntry c e
      else s.part.dropSup.craneChanged c e).ok f [] = q → exec .tableWriteCrane s = .next (s.withPart q) := fun q h =>
    State.execAwaitTable_eq (exec_tableWriteCrane s) hreq hq hw ((craneTable_of_writes hmode' hparse hrange).trans h)
  refine ⟨fun hsame => hexec _ ?_, fun hother => ?_⟩
  · rw [if_pos hsame]
    rfl
  · obtain ⟨htracker, harbiter, horder, hlatch, hline, hhook, hrest⟩ := s.part.dropSup.craneChanged_spec c e
    have hleaves : s.part.dropSup.Leaves ⟨True, False, False, False, False, False, False, False, False⟩
        ((s.part.dropSup.craneChanged c e).ok f []) :=
      (s.part.dropSup.craneChanged_leaves c e trivial).trans (Part.ok_keeps (S := Scope.wide) _ f []).leaves
    obtain ⟨t, hnext, hpending, hpart⟩ := State.exists_next (hexec _ (by rw [if_neg hother]))
    refine ⟨t, hnext, hpending, ?_⟩
    rw [hpart]
    generalize s.part.dropSup.craneChanged c e = q at htracker harbiter horder hlatch hline hhook hrest hleaves
    have hok := q.ok_releasesOnly f []
    have hgate := q.ok_gate f []
    have hlines := q.ok_lines f []
    generalize q.ok f [] = r at hok hgate hlines hleaves
    have hr : r.hook c = { Hook.reset with active := (s.part.hook c).active, staged := (s.part.hook c).staged }.activate := by
      rw [Part.hook, hok.hooks]
      exact hhook
    have hstaged : ∀ a b : Option (List CalPoint), { Hook.reset with active := a, staged := b }.activate.active = b.or a
        ∧ { Hook.reset with active := a, staged := b }.activate.staged = none := by
      intro a b
      cases b <;> exact ⟨rfl, rfl⟩
    have hkept : ∀ a b : Option (List CalPoint), { Hook.reset with active := a, staged := b }.activate.state = .empty
        ∧ { Hook.reset with active := a, staged := b }.activate.coil = none
        ∧ { Hook.reset with active := a, staged := b }.activate.source = none
        ∧ { Hook.reset with active := a, staged := b }.activate.dest = none := by
      intro a b
      cases b <;> exact ⟨rfl, rfl, rfl, rfl⟩
    obtain ⟨hactive, hnone⟩ := hstaged (s.part.hook c).active (s.part.hook c).staged
    obtain ⟨hempty, hcoil, hsource, hdest⟩ := hkept (s.part.hook c).active (s.part.hook c).staged
    rw [hr]
    refine ⟨hok.tracker.trans htracker, ?_, ?_, ?_, hempty, hcoil, hsource, hdest, hnone, hactive, fun d hd => ?_,
      hok.arbiter.trans harbiter, hleaves.params.resolve_left id, hleaves.mode.resolve_left id⟩
    · rw [Part.order, hgate]
      exact horder
    · rw [Part.latch, hgate]
      exact hlatch
    · rw [hlines]
      exact hline
    · obtain ⟨h1, h2, h3⟩ := hrest d hd
      refine ⟨?_, ?_, ?_⟩
      · rw [Part.order, hgate]
        exact h1
      · rw [Part.latch, hgate]
        exact h2
      · rw [Part.hook, hok.hooks]
        exact h3

end Sys2Proof.Machine
end

section
/-! O44. The slot geometry table (R99). -/

namespace Sys2Proof.Machine

/-- What a geometry entry makes of what stood at its index (R99). -/
def redefined (old : Option Slot) : Option Geometry → Option Slot
  | none => none
  | some g => some ⟨g, (old.map Slot.contents).getD .free⟩

theorem SlotMap.slot_applyGeometry {m : SlotMap} (h : m.Sorted) (e : Nat × Option Geometry) (i : Nat) :
    (m.applyGeometry e).slot i = if i = e.1 then redefined (m.slot e.1) e.2 else m.slot i := by
  unfold SlotMap.applyGeometry
  split
  next hg =>
    rw [SlotMap.slot, slotFind_slotDrop _ _ _ h, hg]
    rfl
  next g hg =>
    have hput : ∀ s : Slot, ({ m with slots := slotPut e.1 s m.slots } : SlotMap).slot i = if i = e.1 then some s else m.slot i :=
      fun s => slotFind_slotPut _ _ _ _
    split
    next s hs => rw [hput, hg, hs]; rfl
    next hs => rw [hput, hg, hs]; rfl

/-- Entries that name no slot twice are applied each at its own index (R99). -/
theorem SlotMap.slot_applyGeometries {m : SlotMap} (h : m.Sorted) (gs : List (Nat × Option Geometry))
    (hnd : (gs.map Prod.fst).Nodup) (i : Nat) :
    (gs.foldl SlotMap.applyGeometry m).slot i = (gs.lookup i).elim (m.slot i) fun g => redefined (m.slot i) g := by
  induction gs generalizing m with
  | nil => rfl
  | cons e rest ih =>
    obtain ⟨hnot, hrest⟩ := List.nodup_cons.1 hnd
    obtain ⟨k, g⟩ := e
    rw [List.foldl_cons, ih (m.applyGeometry_sorted (k, g) h) hrest, SlotMap.slot_applyGeometry h, List.lookup_cons]
    by_cases hi : i = k
    · subst hi
      have hnone : rest.lookup i = none := List.lookup_eq_none_iff.2 fun p hp => by
        have hmem : p.1 ∈ rest.map Prod.fst := List.mem_map_of_mem hp
        have hne : p.1 ≠ i := fun heq => hnot (heq ▸ hmem)
        simpa using hne.symm
      simp only [hnone, if_true, beq_self_eq_true, Option.elim_none, Option.elim_some]
    · simp only [if_neg hi, beq_eq_false_iff_ne.2 hi]

theorem SlotMap.mem_applyGeometry {m : SlotMap} {e : Nat × Option Geometry} {x : Nat × Slot} (h : x ∈ (m.applyGeometry e).slots) :
    x.1 = e.1 ∨ x ∈ m.slots := by
  unfold SlotMap.applyGeometry at h
  split at h
  · exact .inr (mem_slotDrop _ _ _ h)
  · split at h
    · exact (mem_slotPut _ _ _ _ h).imp_left fun h => congrArg Prod.fst h
    · exact (mem_slotPut _ _ _ _ h).imp_left fun h => congrArg Prod.fst h

theorem SlotMap.mem_applyGeometries {m : SlotMap} {gs : List (Nat × Option Geometry)} {x : Nat × Slot}
    (h : x ∈ (gs.foldl SlotMap.applyGeometry m).slots) : x.1 ∈ gs.map Prod.fst ∨ x ∈ m.slots := by
  induction gs generalizing m with
  | nil => exact .inr h
  | cons e rest ih =>
    rcases ih h with h | h
    · exact .inl (List.mem_cons_of_mem _ h)
    · refine (SlotMap.mem_applyGeometry h).imp_left fun hx => ?_
      rw [hx]
      exact List.mem_cons_self

theorem SlotMap.applyGeometry_fixed (m : SlotMap) (e : Nat × Option Geometry) :
    (m.applyGeometry e).blocks = m.blocks ∧ (m.applyGeometry e).counter = m.counter ∧ (m.applyGeometry e).requests = m.requests := by
  unfold SlotMap.applyGeometry
  split
  · exact ⟨rfl, rfl, rfl⟩
  · split <;> exact ⟨rfl, rfl, rfl⟩

theorem SlotMap.applyGeometries_fixed (m : SlotMap) (gs : List (Nat × Option Geometry)) :
    (gs.foldl SlotMap.applyGeometry m).blocks = m.blocks ∧ (gs.foldl SlotMap.applyGeometry m).counter = m.counter
      ∧ (gs.foldl SlotMap.applyGeometry m).requests = m.requests := by
  induction gs generalizing m with
  | nil => exact ⟨rfl, rfl, rfl⟩
  | cons e rest ih =>
    obtain ⟨hb, hc, hr⟩ := m.applyGeometry_fixed e
    obtain ⟨hb', hc', hr'⟩ := ih (m.applyGeometry e)
    exact ⟨hb'.trans hb, hc'.trans hc, hr'.trans hr⟩

/-- The supports of a slot are sound when they are so in the slots of the map (R99). -/
theorem SlotMap.sound_eq (m : SlotMap) (s : Slot) : m.sound s = s.restsIn m.slot := by
  unfold SlotMap.sound Slot.restsIn
  cases s.geo.tier with
  | floor => rfl
  | upper a b => simp [SlotMap.carries, Tier.ground, Bool.and_assoc]

theorem readGeometries_of_map {es : List (List Byte)} {gs : List (Nat × Option Geometry)}
    (h : es.map readGeometry = gs.map some) : readGeometries es = .ok gs := by
  induction es generalizing gs with
  | nil =>
    cases gs with
    | nil => rfl
    | cons g gs => cases h
  | cons e es ih =>
    cases gs with
    | nil => cases h
    | cons g gs =>
      obtain ⟨hhead, htail⟩ := List.cons.inj h
      simp only [readGeometries, hhead, ih htail]

/-- Settles O44. -/
theorem slotGeometryIsWritten : Obligations.SlotGeometryIsWritten := by
  unfold Obligations.SlotGeometryIsWritten
  intro s f first es gs hreq hq hmode hsorted hw hread hnd hblocks hcontents after hrests
  let m := gs.foldl SlotMap.applyGeometry s.part.slots
  have hslot : ∀ i, m.slot i = after i := by
    intro i
    rw [SlotMap.slot_applyGeometries hsorted gs hnd i]
    simp only [after]
    cases gs.lookup i with
    | none => rfl
    | some g => cases g <;> rfl
  have hsound : m.slots.find? (fun e => !m.sound e.2) = none := by
    refine List.find?_eq_none.2 fun e he => ?_
    have hfind : m.slot e.1 = some e.2 := slotFind_of_mem e.1 e.2 m.slots (SlotMap.applyGeometries_sorted gs _ hsorted) he
    have hmem : e.1 ∈ s.part.slots.slots.map Prod.fst ++ gs.map Prod.fst := by
      rcases SlotMap.mem_applyGeometries he with h | h
      · exact List.mem_append_right _ h
      · exact List.mem_append_left _ (List.mem_map_of_mem h)
    have hrest := hrests e.1 hmem
    rw [← hslot, hfind, Option.all_some, ← funext hslot, ← SlotMap.sound_eq] at hrest
    rw [hrest]
    exact Bool.false_ne_true
  obtain ⟨hb, hc, hr⟩ := s.part.slots.applyGeometries_fixed gs
  refine ⟨m, State.execSlotTable_eq (exec_tableWriteSlotGeometry s) hreq hq hw ?_, hslot,
    SlotMap.applyGeometries_sorted gs _ hsorted, hb, hc, hr⟩
  have hmode' : ¬ s.part.dropSup.mgmt.mode ≠ .startup := not_not_intro hmode
  have hdefined : gs.find? (fun e => e.2.any fun g => !s.part.dropSup.slots.blocks[g.block].defined) = none := by
    refine List.find?_eq_none.2 fun e he => ?_
    have hall := hblocks e he
    cases hg : e.2 with
    | none => exact Bool.false_ne_true
    | some g =>
      rw [hg, Option.all_some] at hall
      rw [Option.any_some]
      change ¬ (!s.part.slots.blocks[g.block].defined) = true
      rw [hall]
      exact Bool.false_ne_true
  have hchangeable : gs.find? (fun e => !s.part.dropSup.slots.changeable e.1) = none := by
    refine List.find?_eq_none.2 fun e he => ?_
    have hall : s.part.dropSup.slots.changeable e.1 = true := hcontents e he
    rw [hall]
    exact Bool.false_ne_true
  have hsound' : (gs.foldl SlotMap.applyGeometry s.part.dropSup.slots).slots.find?
      (fun e => !(gs.foldl SlotMap.applyGeometry s.part.dropSup.slots).sound e.2) = none := hsound
  simp only [ownerGeometry, if_neg hmode', readGeometries_of_map hread, hdefined, hchangeable, hsound']
  rfl

end Sys2Proof.Machine
end

section
/-! O45. The bay table (R135 to R137). -/

namespace Sys2Proof.Machine

section
variable (p : Part) (b : Fin 6) (e : BayEntry)

/-- The bay table's owner on one entry in range whose station is its own (R135, R136). -/
theorem ownerBays_of_writes {p : Part} {b : Fin 6} {e : BayEntry} {f : Frame} {bytes : List Byte} (hmode : p.mgmt.mode = .startup)
    (hparse : parseBayEntry bytes = some e) (hrange : e.inRange = true)
    (hstation : ∀ d, d ≠ b → e.configured = true → (p.bayEntry d).configured = true → (p.bayEntry d).station ≠ e.station) :
    ownerBays f b.val [bytes] p = (p.applyBayEntry b e).ok f [] := by
  have htaken : p.stationTaken b e = false := by
    rw [Bool.eq_false_iff]
    intro h
    simp only [Part.stationTaken, Bool.and_eq_true, List.any_eq_true, bne_iff_ne, beq_iff_eq] at h
    obtain ⟨hconf, d, _, ⟨hne, hd⟩, heq⟩ := h
    exact hstation d hne hconf hd heq
  simp only [ownerBays, hmode, ne_eq, not_true_eq_false, if_false, bayOf_val, List.head?_cons, Option.bind_some, readBayEntry,
    if_pos b.isLt, hparse, Option.filter_some, hrange, if_true, htaken, Bool.false_eq_true]

/-! ## A bay that stays (R136) -/

/-- A zone that the bay part leaves (R43). -/
def Zone.cleared (z : Zone) (b : Fin 6) (on : Bool) : Zone :=
  if on then { z with bayHold := BaySet.put z.bayHold b false } else z

/-- A zone as the bay part of its hold follows the mask (R43, R136). -/
def Zone.moved (z : Zone) (b : Fin 6) (old new : ZoneMask) (k : Nat) : Zone :=
  if old.getLsbD k = true ∧ new.getLsbD k = false then { z with bayHold := z.bayHold.set b false }
  else if old.getLsbD k = false ∧ new.getLsbD k = true ∧ z.defined = true then { z with bayHold := z.bayHold.set b true }
  else z

/-- The bay part leaves the zones of the first mask and then joins those of the second (R136). -/
theorem Zone.moved_eq (z : Zone) (b : Fin 6) (old new : ZoneMask) (k : Fin 32) :
    (if (new &&& ~~~old).getLsbD k.val then
      if (z.cleared b ((old &&& ~~~new).getLsbD k.val)).defined then
        { z.cleared b ((old &&& ~~~new).getLsbD k.val) with
          bayHold := BaySet.put (z.cleared b ((old &&& ~~~new).getLsbD k.val)).bayHold b true }
      else z.cleared b ((old &&& ~~~new).getLsbD k.val)
    else z.cleared b ((old &&& ~~~new).getLsbD k.val)) = z.moved b old new k.val := by
  simp only [BitVec.getLsbD_and, BitVec.getLsbD_not, k.isLt, decide_true, Bool.true_and, Zone.moved]
  generalize old.getLsbD k.val = o
  generalize new.getLsbD k.val = n
  cases o
  · cases n
    · simp [Zone.cleared]
    · cases hd : z.defined <;> simp [Zone.cleared, hd, BaySet.put]
  · cases n
    · simp [Zone.cleared, BaySet.put]
    · simp [Zone.cleared]

theorem Part.cleared_zone (m : ZoneMask) (k : Fin 32) :
    (p.withZones (Vector.ofFn fun k : Fin 32 =>
      if m.getLsbD k.val then { p.arbiter.zones[k] with bayHold := BaySet.put p.arbiter.zones[k].bayHold b false }
      else p.arbiter.zones[k])).arbiter.zones[k] = p.arbiter.zones[k].cleared b (m.getLsbD k.val) := by
  rw [Part.withZones_zones, Fin.getElem_fin, Vector.getElem_ofFn]
  rfl

theorem Part.withZones_withZones (zs zs' : Vector Zone 32) : (p.withZones zs).withZones zs' = p.withZones zs' := rfl

/-- The hold of a bay with DRIVER moves from the zones that leave its mask to those that join it (R43, R136). -/
theorem Part.bayStays_of_driver (hdriver : (p.bay b).causes.driver = true)
    (hfree : ∀ k : Fin 32, (p.bayEntry b).mask.getLsbD k.val = true → e.mask.getLsbD k.val = false →
      p.arbiter.zones[k].waiters = []) :
    p.bayStays b e = (p.setBayEntry b e).withZones
      (Vector.ofFn fun k : Fin 32 => p.arbiter.zones[k].moved b (p.bayEntry b).mask e.mask k.val) := by
  have hleave : ∀ k : Fin 32, ((p.bayEntry b).mask &&& ~~~e.mask).getLsbD k.val = true →
      (p.setBayEntry b e).arbiter.zones[k].waiters = [] := by
    intro k hk
    simp only [BitVec.getLsbD_and, BitVec.getLsbD_not, Bool.and_eq_true, k.isLt, decide_true, Bool.true_and,
      Bool.not_eq_true'] at hk
    exact hfree k hk.1 hk.2
  have hstays : p.bayStays b e = ((p.setBayEntry b e).clearBayHold b ((p.bayEntry b).mask &&& ~~~e.mask)).setBayHold b
      (e.mask &&& ~~~(p.bayEntry b).mask) := if_pos hdriver
  rw [hstays, Part.clearBayHold_of_no_waiters _ b _ hleave, Part.setBayHold_eq,
    Part.withZones_withZones]
  refine congrArg (p.setBayEntry b e).withZones ?_
  refine Vector.ext fun i hi => ?_
  rw [Vector.getElem_ofFn, Vector.getElem_ofFn]
  have hcleared := (p.setBayEntry b e).cleared_zone b ((p.bayEntry b).mask &&& ~~~e.mask) ⟨i, hi⟩
  rw [hcleared]
  exact Zone.moved_eq _ b _ _ ⟨i, hi⟩

/-! ## A bay that leaves (R136, R72, R137) -/

/-- The scope of a bay that leaves: only the polls move. -/
def Scope.polling : Scope := ⟨fun _ => False, False, True, False⟩

theorem Part.Keeps.polling_records {p q : Part} (h : p.Keeps Scope.polling q) : q.tracker.records = p.tracker.records :=
  h.records.resolve_left id

theorem Part.moveScan_kept (d : Fin 6) :
    (p.moveScan b).bay d = p.bay d ∧ (p.moveScan b).lines = p.lines := by
  unfold Part.moveScan
  split
  next d' _ =>
    refine ⟨(p.startPoll_bays d').1 d, ?_⟩
    unfold Part.startPoll
    simp only []
    split <;> rfl
  · exact ⟨rfl, rfl⟩

/-- The part once a bay that leaves has no plan and no hold (R136). -/
def Part.bayEmptied : Part :=
  let q := p.setBayEntry b e
  (if (q.bay b).plan.isSome then (q.discardPlan b).derive b else q).clearBayHold b (p.bayEntry b).mask

theorem Part.clearBayHold_sameBays (m : ZoneMask) : p.SameBays (p.clearBayHold b m) := by
  refine Part.sameBays_foldl (fun q k => ?_) _ p
  have hunhold : q.SameBays (q.unholdZone b k) :=
    Part.related_ite q (gateKeeps_sameBays.trans (gateKeeps_sameBays.setZone q k _) (gateKeeps_sameBays.handOn _ k)) (.of_eq rfl)
  exact Part.related_ite q hunhold (.of_eq rfl)

theorem Part.derive_plan_isSome : ((p.derive b).bay b).plan.isSome = (p.bay b).plan.isSome := by
  have hfacts := congrArg (fun r : BayRecord => r.plan.isSome) ((p.derive_reacts b).facts b)
  simpa only [BayRecord.facts, BayRecord.bare, Option.isSome_map] using hfacts

/-- Its plan is discarded with the hold (R136). -/
theorem Part.bayEmptied_plan : ((p.bayEmptied b e).bay b).plan = none := by
  refine Option.not_isSome_iff_eq_none.1 fun h => ?_
  unfold Part.bayEmptied at h
  rw [(Part.clearBayHold_sameBays _ b _).plan_isSome] at h
  split at h
  next hplan =>
    rw [Part.derive_plan_isSome, (Part.discardPlan_bay hplan).1] at h
    exact absurd h Bool.false_ne_true
  next hplan => exact hplan h

theorem Part.bayEmptied_keeps : (p.setBayEntry b e).Keeps Scope.polling (p.bayEmptied b e) := by
  refine Part.Keeps.trans ?_ (Part.clearBayHold_keeps _ b _)
  split
  · exact (Part.discardPlan_keeps _ b).trans (Part.derive_keeps _ b)
  · exact .refl _

/-- The fault mark of a red readback is cleared (R72). -/
theorem Part.clearFault_red : p.clearFault (8 + b.val) =
    { p with lines := { p.lines with red := p.lines.red.set b { p.lines.red[b] with fault := false } } } := by
  have hb := b.isLt
  have hout : p.lines.output (8 + b.val) = some p.lines.red[b] := by
    rw [Lines.output, dif_neg (by omega), dif_pos (by omega)]
    simp
  have hset : ∀ o, p.lines.setOutput (8 + b.val) o = { p.lines with red := p.lines.red.set b o } := by
    intro o
    rw [Lines.setOutput, dif_neg (by omega), dif_pos (by omega)]
    simp
  rw [Part.clearFault, hout]
  simp only [hset]

/-- The fault mark of a green readback is cleared (R72). -/
theorem Part.clearFault_green : p.clearFault (16 + b.val) =
    { p with lines := { p.lines with green := p.lines.green.set b { p.lines.green[b] with fault := false } } } := by
  have hb := b.isLt
  have hnot : ¬ 16 + b.val < 4 := by omega
  have hnot' : ¬ (8 ≤ 16 + b.val ∧ 16 + b.val < 14) := by omega
  have hin : 8 + 8 ≤ 16 + b.val ∧ 16 + b.val < 22 := by omega
  have hout : p.lines.output (16 + b.val) = some p.lines.green[b] := by
    rw [Lines.output, dif_neg hnot, dif_neg hnot', dif_pos hin]
    simp
  have hset : ∀ o, p.lines.setOutput (16 + b.val) o = { p.lines with green := p.lines.green.set b o } := by
    intro o
    rw [Lines.setOutput, dif_neg hnot, dif_neg hnot', dif_pos hin]
    simp
  rw [Part.clearFault, hout]
  simp only [hset]

/-- A bay's lamps are not commanded and have no fault mark. -/
def Lines.Dark (l : Lines) (b : Fin 6) : Prop :=
  l.red[b].commanded = false ∧ l.green[b].commanded = false ∧ l.red[b].fault = false ∧ l.green[b].fault = false

/-- The lamps of a bay go out, and their fault marks with them. -/
def Part.lampsOut : Part := ((p.commandLamps b false false).clearFault (8 + b.val)).clearFault (16 + b.val)

theorem Part.lampsOut_lines : (p.lampsOut b).lines.Dark b := by
  rw [Lines.Dark, Part.lampsOut, Part.clearFault_green, Part.clearFault_red]
  simp [Part.commandLamps, OutLine.command_commanded]

/-- The part once the timers and the lamps of a bay are out. -/
def Part.bayDark : Part := (p.setBay b { p.bay b with rearmAt := none, flashAt := none }).lampsOut b

theorem Part.bayDark_keeps : p.Keeps Scope.polling (p.bayDark b) :=
  (p.setBay_keeps b _ (.inl trivial)).trans ((Part.commandLamps_keeps _ b false false).trans
    ((Part.clearFault_keeps _ _).trans (Part.clearFault_keeps _ _)))

theorem Part.bayDark_bay : (p.bayDark b).bay b = { p.bay b with rearmAt := none, flashAt := none } := p.setBay_bay b _

theorem Part.bayDark_lines : (p.bayDark b).lines.Dark b := Part.lampsOut_lines _ b

/-- A bay that leaves loses its plan, its timers and its lamps, and the scan moves on from it (R136, R72, R137). -/
theorem Part.bayLeaves_eq : p.bayLeaves b e =
    if ((p.bayEmptied b e).bayDark b).bays.scan.any fun sc => sc.bay == b then ((p.bayEmptied b e).bayDark b).moveScan b
    else (p.bayEmptied b e).bayDark b := rfl

theorem Part.bayLeaves_spec :
    (p.setBayEntry b e).Keeps Scope.polling (p.bayLeaves b e)
      ∧ ((p.bayLeaves b e).bay b).plan = none ∧ ((p.bayLeaves b e).bay b).rearmAt = none
      ∧ ((p.bayLeaves b e).bay b).flashAt = none
      ∧ (p.bayLeaves b e).lines.Dark b := by
  have hkeeps := (p.bayEmptied_keeps b e).trans (Part.bayDark_keeps _ b)
  have hplan := p.bayEmptied_plan b e
  have hbay := (p.bayEmptied b e).bayDark_bay b
  have hout := (p.bayEmptied b e).bayDark_lines b
  rw [p.bayLeaves_eq b e]
  generalize (p.bayEmptied b e).bayDark b = u at hkeeps hbay hout
  obtain ⟨hmoved, hlines⟩ := u.moveScan_kept b b
  split
  · rw [hmoved, hlines, hbay]
    exact ⟨hkeeps.trans (u.moveScan_keeps b trivial), hplan, rfl, rfl, hout⟩
  · rw [hbay]
    exact ⟨hkeeps, hplan, rfl, rfl, hout⟩

end

/-- Settles O45. -/
theorem bayTableIsWritten : Obligations.BayTableIsWritten := by
  unfold Obligations.BayTableIsWritten
  intro s f b bytes e hreq hq hmode hw hparse hrange hstation written lamp
  have hmode' : s.part.dropSup.mgmt.mode = .startup := hmode
  have hexec : ∀ q : Part, s.part.dropSup.applyBayEntry b e = q → exec .tableWriteBay s = .next (s.withPart (q.ok f [])) :=
    fun q h => State.execAwaitTable_eq (exec_tableWriteBay s) hreq hq hw
      ((ownerBays_of_writes (p := s.part.dropSup) hmode' hparse hrange hstation).trans (congrArg (·.ok f []) h))
  have hconf : (s.part.dropSup.bayEntry b).configured = (s.part.bayEntry b).configured := rfl
  refine ⟨fun hsame hquiet => hexec _ ?_, fun he hb hdriver => ?_, fun he hb => hexec _ ?_, fun he hb => ?_⟩
  · cases he : e.configured with
    | false =>
      rw [Part.applyBayEntry, hconf, ← hsame, he]
      rfl
    | true =>
      rw [Part.applyBayEntry, hconf, ← hsame, he]
      exact if_neg (by rw [show ((s.part.dropSup.setBayEntry b e).bay b).causes.driver = false from
        hquiet.resolve_left (by rw [he]; decide)]; decide)
  · intro old hfree
    refine hexec _ ?_
    rw [Part.applyBayEntry, hconf, hb, he]
    exact s.part.dropSup.bayStays_of_driver b e hdriver hfree
  · rw [Part.applyBayEntry, hconf, hb, he]
    simp only []
    refine if_congr ?_ rfl rfl
    exact Option.isNone_iff_eq_none
  · obtain ⟨t, hnext, hpending, hpart⟩ := State.exists_next (hexec (s.part.dropSup.bayLeaves b e)
      (by rw [Part.applyBayEntry, hconf, hb, he]))
    refine ⟨t, hnext, hpending, ?_⟩
    rw [hpart]
    obtain ⟨hkeeps, hplan, hrearm, hflash, hdark⟩ := s.part.dropSup.bayLeaves_spec b e
    generalize s.part.dropSup.bayLeaves b e = q at hkeeps hplan hrearm hflash hdark
    have hall := hkeeps.trans (q.ok_keeps f [])
    have hbays : (q.ok f []).bay b = q.bay b := by rw [Part.bay, (q.ok_releasesOnly f []).bays, Part.bay]
    have hlines := q.ok_lines f []
    generalize q.ok f [] = r at hall hbays hlines
    rw [← hlines] at hdark
    obtain ⟨hred, hgreen, hredFault, hgreenFault⟩ := hdark
    rw [hbays]
    exact ⟨hall.bayEntries, hplan, hrearm, hflash, hred, hgreen, hredFault, hgreenFault, hall.polling_records, hall.params,
      hall.mode⟩

end Sys2Proof.Machine
end

section
/-! O23. The checks of an order, in their order (R55 to R57). -/

namespace Sys2Proof.Machine

/-! ## Order frames -/

/-- An order frame at the head is judged by the gate (R52, R55). -/
theorem exec_order {s : State} {c : Fin 4} {f : Frame} {form : Instr × Kind × OrderKind} {q : Part} (hform : form ∈ orderForms)
    (ho : s.OrderFor form.2.1 c f) (hq : s.Quiet) (h : s.part.dropSup.takeOrder c form.2.2 f.payload = q) :
    exec form.1 s = .next (s.withPart q) := by
  have hact : exec form.1 s = s.act fun p => p.orderFrame form.2.1 form.2.2 := by
    simp only [orderForms, List.mem_cons, List.not_mem_nil, or_false] at hform
    rcases hform with rfl | rfl | rfl | rfl <;> rfl
  have horder : form.2.1.isOrder = true := by
    simp only [orderForms, List.mem_cons, List.not_mem_nil, or_false] at hform
    rcases hform with rfl | rfl | rfl | rfl <;> rfl
  rw [hact]
  exact State.act_eq ho.1 ((orderFrame_of_order ho horder hq form.2.2).trans h)

section
variable {p : Part} {c : Fin 4} {k : OrderKind} {payload : List Byte} {r : OrderRequest}

theorem Part.takeOrder_malformed (h : readOrder k payload = none) :
    p.takeOrder c k payload = p.verdict c (orderTag payload) .refused (some .malformed) 0 0 := by
  rw [Part.takeOrder, h]

theorem Part.takeOrder_read (h : readOrder k payload = some r) : p.takeOrder c k payload = p.judgeOrder c r := by
  rw [Part.takeOrder, h]

theorem Part.judgeOrder_refused {why : Reason} (h : p.craneChecks c = some why) :
    p.judgeOrder c r = p.verdict c r.tag .refused (some why) 0 0 := by
  simp only [Part.judgeOrder, Part.firstChecks, h]

theorem Part.judgeOrder_busy (h : p.craneChecks c = none) (hu : p.underWay c = true) :
    p.judgeOrder c r = p.verdict c r.tag .busy none 0 0 := by
  simp only [Part.judgeOrder, Part.firstChecks, h, hu, if_true]

theorem Part.judgeOrder_unresolved (h : p.craneChecks c = none) (hu : p.underWay c = false) (hr : p.resolve c r.kind r.loc = none) :
    p.judgeOrder c r = p.verdict c r.tag .refused (some .badLocation) 0 0 := by
  simp only [Part.judgeOrder, Part.firstChecks, h, hu, Bool.false_eq_true, if_false, Part.resolveOrder, hr]

theorem Part.judgeOrder_resolved {t : Point} (h : p.craneChecks c = none) (hu : p.underWay c = false)
    (hr : p.resolve c r.kind r.loc = some t) : p.judgeOrder c r = p.judgeResolved c r t := by
  simp only [Part.judgeOrder, Part.firstChecks, h, hu, Bool.false_eq_true, if_false, Part.resolveOrder, hr]

/-! ## Checks 1 to 4 (R55) -/

theorem Part.craneChecks_wrongMode (h : p.mgmt.mode ≠ .run) : p.craneChecks c = some .wrongMode := if_pos h

theorem Part.craneChecks_untracked (hm : p.mgmt.mode = .run) (h : (p.record c).tracking ≠ .tracked) :
    p.craneChecks c = some .craneUntracked := (if_neg (not_not_intro hm)).trans (if_pos h)

theorem Part.craneChecks_latched (hm : p.mgmt.mode = .run) (ht : (p.record c).tracking = .tracked)
    (h : (p.latch c).causes.any = true) : p.craneChecks c = some .stopLatched :=
  (if_neg (not_not_intro hm)).trans ((if_neg (not_not_intro ht)).trans (if_pos h))

/-- Check 4, on the drive state of the last telegram (R55). -/
theorem Part.craneChecks_drive (hm : p.mgmt.mode = .run) (ht : (p.record c).tracking = .tracked)
    (hl : (p.latch c).causes.any = false) : p.craneChecks c =
      if (p.record c).last.map Telegram.drive = some .manual then some .craneManual
      else if (p.record c).last.map Telegram.drive = some .fault then some .craneFault
      else none := by
  unfold Part.craneChecks
  rw [if_neg (not_not_intro hm), if_neg (not_not_intro ht), hl, if_neg Bool.false_ne_true]
  cases (p.record c).last.map Telegram.drive with
  | none => rfl
  | some d => cases d <;> rfl

/-! ## Checks 7 to 11 (R55) -/

theorem Part.judgeResolved_refused {t : Point} {why : Reason} (h : p.orderChecks c r.kind r.loc t = some why) :
    p.judgeResolved c r t = p.notAccepted c r.tag .refused (some why) t := by
  rw [Part.judgeResolved, h]

theorem Part.judgeResolved_busy {t : Point} (h : p.orderChecks c r.kind r.loc t = none) (hn : 16 ≤ p.link.normal.length) :
    p.judgeResolved c r t = p.notAccepted c r.tag .busy none t := by
  simp only [Part.judgeResolved, h, (Link.normalRoom_eq_false_iff _).2 hn, Bool.false_eq_true, if_false]

theorem hookFits_iff (k : OrderKind) (h : Hook) :
    hookFits k h = true ↔ (k = .pick → h.state = .empty) ∧ (k = .place → h.state = .weighed) := by
  cases k <;> simp [hookFits]

theorem Part.placeChecks_unfit {loc : Option Location} (h : hookFits k (p.hook c) = false) :
    p.placeChecks c k loc = some .hookState := by
  rw [Part.placeChecks, h]
  rfl

theorem Part.placeChecks_fit {loc : Option Location} (h : hookFits k (p.hook c) = true) :
    p.placeChecks c k loc = p.ownerCheck c k loc := by
  rw [Part.placeChecks, h]
  rfl

theorem Part.orderChecks_place {loc : Option Location} {t : Point} {why : Reason} (h : p.placeChecks c k loc = some why) :
    p.orderChecks c k loc t = some why := by
  rw [Part.orderChecks, h]

theorem Part.orderChecks_target {loc : Option Location} {t : Point} (h : p.placeChecks c k loc = none) :
    p.orderChecks c k loc t = p.targetChecks c k t := by
  rw [Part.orderChecks, h]

/-- Checks 9 and 10 (R55, R155). -/
theorem Part.targetChecks_eq (t : Point) : p.targetChecks c k t =
    if (p.hook c).loaded = true ∧ p.inCabArea t.x t.y = true then some .cabArea
    else if (k = .pick ∨ k = .place) ∧ (p.zone (p.zoneOf t.x)).held = true then some .zoneHeld
    else none := by
  simp only [Part.targetChecks, Bool.and_eq_true, Bool.or_eq_true, beq_iff_eq]

end

/-- Settles O23. -/
theorem ordersAreRefusedInOrder : Obligations.OrdersAreRefusedInOrder := by
  unfold Obligations.OrdersAreRefusedInOrder
  intro s c f form hform ho hq gives drive
  have hexec : ∀ q : Part, s.part.dropSup.takeOrder c form.2.2 f.payload = q → exec form.1 s = .next (s.withPart q) :=
    fun _ h => exec_order hform ho hq h
  refine ⟨fun hnone => hexec _ (Part.takeOrder_malformed hnone), fun r hread => ?_⟩
  have hjudged : ∀ q : Part, s.part.dropSup.judgeOrder c r = q → exec form.1 s = .next (s.withPart q) := fun q h =>
    hexec q ((Part.takeOrder_read hread).trans h)
  have hrefused : ∀ why : Reason, s.part.dropSup.craneChecks c = some why → gives r.tag .refused (some why) := fun why h =>
    hjudged _ (Part.judgeOrder_refused h)
  refine ⟨fun hm => hrefused _ (Part.craneChecks_wrongMode hm), fun hm => ⟨fun ht => hrefused _ (Part.craneChecks_untracked hm ht),
    fun ht => ⟨fun hl => hrefused _ (Part.craneChecks_latched hm ht hl), fun hl => ?_⟩⟩⟩
  have hdrive : s.part.dropSup.craneChecks c = if drive = some .manual then some .craneManual
      else if drive = some .fault then some .craneFault else none := Part.craneChecks_drive hm ht hl
  refine ⟨fun hd => hrefused _ ?_, fun hd => hrefused _ ?_, fun hmanual hfault => ?_⟩
  · rw [hdrive, if_pos hd]
  · rw [hdrive, if_neg (by rw [hd]; decide), if_pos hd]
  have hpassed : s.part.dropSup.craneChecks c = none := by rw [hdrive, if_neg hmanual, if_neg hfault]
  refine ⟨fun hu => hjudged _ (Part.judgeOrder_busy hpassed hu), fun hu =>
    ⟨fun hr => hjudged _ (Part.judgeOrder_unresolved hpassed hu hr), fun t hr => ?_⟩⟩
  intro answers hook fits inCab held
  have hresolved : ∀ q : Part, s.part.dropSup.judgeResolved c r t = q → exec form.1 s = .next (s.withPart q) := fun q h =>
    hjudged q ((Part.judgeOrder_resolved hpassed hu hr).trans h)
  have hfailed : ∀ why : Reason, s.part.dropSup.orderChecks c r.kind r.loc t = some why → answers .refused (some why) :=
    fun why h => hresolved _ (Part.judgeResolved_refused h)
  refine ⟨fun hunfit => hfailed _ (Part.orderChecks_place (Part.placeChecks_unfit ?_)), fun hfit => ?_⟩
  · exact Bool.eq_false_iff.2 fun h => hunfit ((hookFits_iff r.kind _).1 h)
  have hplace : s.part.dropSup.placeChecks c r.kind r.loc = s.part.ownerCheck c r.kind r.loc :=
    Part.placeChecks_fit ((hookFits_iff r.kind _).2 hfit)
  refine ⟨fun why howner => hfailed why (Part.orderChecks_place (hplace.trans howner)), fun howner => ?_⟩
  have htarget : s.part.dropSup.orderChecks c r.kind r.loc t =
      if inCab then some .cabArea else if held then some .zoneHeld else none :=
    (Part.orderChecks_target (hplace.trans howner)).trans (Part.targetChecks_eq t)
  refine ⟨fun hcab => hfailed _ (by rw [htarget, if_pos hcab]), fun hcab =>
    ⟨fun hheld => hfailed _ (by rw [htarget, if_neg hcab, if_pos hheld]), fun hheld hfull => ?_⟩⟩
  exact hresolved _ (Part.judgeResolved_busy (by rw [htarget, if_neg hcab, if_neg hheld]) hfull)

end Sys2Proof.Machine
end

section
/-! O60. Claims, facing claims and the way a crane gives (R26 to R28, R36 to R39). -/

namespace Sys2Proof.Machine

/-! ## Zones that may be granted (R25, R47) -/

theorem Zone.grantable_iff (z : Zone) :
    z.grantable = true ↔ (z.grant = none ∧ z.hold = none ∧ z.bayHold.any = false) ∧ z.blocked = false := by
  simp only [Zone.grantable, Zone.held, Bool.and_eq_true, Bool.not_eq_true', Bool.or_eq_false_iff, Option.isNone_iff_eq_none,
    Option.isSome_eq_false_iff, and_assoc]

theorem Zone.permits_iff (z : Zone) (h : Hook) : z.permits h = true ↔ z.loaded = true ∨ h.loaded = false := by
  simp only [Zone.permits, Bool.or_eq_true, Bool.not_eq_true']

theorem Part.opens_iff (p : Part) (c : Fin 4) (z : Zone) : p.Opens c z ↔ (z.grantable && z.permits (p.hook c)) = true := by
  simp only [Part.Opens, Bool.and_eq_true, Zone.grantable_iff, Zone.permits_iff, and_assoc]

/-! ## Grants (R26) -/

theorem Run.extend_east (r : Run) {k : Nat} (h : k = r.hi + 1) : r.extend k = ⟨r.lo, k⟩ := if_pos h

theorem Run.extend_west (r : Run) {k : Nat} (h : k + 1 = r.lo) (hr : r.lo ≤ r.hi) : r.extend k = ⟨k, r.hi⟩ :=
  (if_neg (by omega)).trans (if_pos h)

section
variable (p : Part) (c : Fin 4) (k : Fin 32) (cls : ClaimClass)

theorem Part.give_eq : p.give c k =
    { p with arbiter := { p.arbiter with
        zones := p.arbiter.zones.set k { p.arbiter.zones[k] with grant := some c }
        runs := p.arbiter.runs.set c (some (match p.run c with | some r => r.extend k | none => ⟨k, k⟩)) } } := by
  have hzone := p.zone_fin k
  unfold Part.give
  rw [hzone, Part.setZone_eq_withZones]
  rfl

theorem Part.joinClaim_eq : p.joinClaim c k cls = p.joined c k cls := by
  have hzone := p.zone_fin k
  unfold Part.joinClaim
  rw [hzone]
  simp only [Part.setZone_eq_withZones]
  rfl

/-! ## A claim that joins (R27, R36) -/

theorem Part.joined_grant (j : Nat) : ((p.joined c k cls).zone j).grant = (p.zone j).grant := by
  by_cases hj : j < 32
  · have h1 := (p.joined c k cls).zone_fin ⟨j, hj⟩
    have h2 := p.zone_fin ⟨j, hj⟩
    rw [show (p.joined c k cls).zone j = _ from h1, show p.zone j = _ from h2]
    simp only [Part.joined, Fin.getElem_fin, Vector.getElem_set]
    split
    next h => subst h; rfl
    · rfl
  · rw [Part.zone, Part.zone, dif_neg hj, dif_neg hj]

theorem Part.joined_claim_ne {j : Fin 4} (h : j ≠ c) : (p.joined c k cls).claim j = p.claim j :=
  Vector.getElem_set_ne c.isLt j.isLt fun hj => h (Fin.ext hj.symm)

/-- The neighbour that faces a claim (R36). -/
theorem Part.facing_iff (j : Fin 4) : p.facing c k = some j ↔
    p.arbiter.zones[k].grant = some j ∧ j ≠ c ∧ ∃ cl : Claim, p.claim j = some cl ∧ (p.zone cl.zone).grant = some c := by
  unfold Part.facing
  rw [p.zone_fin k]
  cases hg : p.arbiter.zones[k].grant with
  | none => simp
  | some i =>
    simp only []
    by_cases hi : i = c
    · subst hi
      simp only [if_true]
      constructor
      · exact fun h => absurd h (by simp)
      · rintro ⟨h, hne, _⟩
        exact absurd (Option.some.inj h).symm hne
    · simp only [if_neg hi]
      cases hcl : p.claim i with
      | none =>
        simp only []
        constructor
        · exact fun h => absurd h (by simp)
        · rintro ⟨h, _, cl, hcl', _⟩
          rw [← Option.some.inj h, hcl] at hcl'
          exact absurd hcl' (by simp)
      | some cl =>
        simp only []
        constructor
        · intro h
          split at h
          next hgr =>
            obtain rfl := Option.some.inj h
            exact ⟨rfl, hi, cl, hcl, hgr⟩
          · exact absurd h (by simp)
        · rintro ⟨h, _, cl', hcl', hgr⟩
          obtain rfl := Option.some.inj h
          obtain rfl := Option.some.inj (hcl.symm.trans hcl')
          exact if_pos hgr

theorem Part.joined_facing : (p.joined c k cls).facing c k = p.facing c k := by
  refine Option.ext fun j => ?_
  have hzone : ∀ q : Part, q.arbiter.zones[k].grant = (q.zone k.val).grant := fun q => congrArg Zone.grant (q.zone_fin k).symm
  rw [Part.facing_iff, Part.facing_iff, hzone, hzone, Part.joined_grant]
  refine and_congr_right fun _ => and_congr_right fun hne => ?_
  simp only [Part.joined_claim_ne p c k cls hne, Part.joined_grant]

/-- A claim that nobody faces waits (R28). -/
theorem Part.afterJoin_of_unfaced (h : p.facing c k = none) :
    (p.joined c k cls).afterJoin c k cls = (p.joined c k cls, .wait) := by
  rw [Part.afterJoin, p.joined_facing c k cls, h]

/-- A facing claim is resolved: of equal or lower class the requester yields (R37). -/
theorem Part.afterJoin_of_facing {j : Fin 4} {cj : Claim} (h : p.facing c k = some j) (hcj : p.claim j = some cj) :
    (p.joined c k cls).afterJoin c k cls =
      if cls.rank ≤ cj.cls.rank then ((p.joined c k cls).resolveFacing c j c cj.zone, .yielded)
      else ((p.joined c k cls).resolveFacing c j j k, .wait) := by
  have hne : j ≠ c := ((p.facing_iff c k j).1 h).2.1
  rw [Part.afterJoin, p.joined_facing c k cls, h]
  simp only [p.joined_claim_ne c k cls hne, hcj]

/-! ## A claim request (R28) -/

variable {p c k cls}

/-- A claim request in RUN of a crane without a claim, for the zone beyond one end of its grant. -/
theorem Part.claimRequest_eq {d : Direction} (hm : p.mgmt.mode = .run) (hc : p.claim c = none) (hb : p.beyond c d = some k.val) :
    p.claimRequest c d cls =
      if p.arbiter.zones[k].blocked then (p, .refused .zoneBlocked)
      else if !p.arbiter.zones[k].permits (p.hook c) then (p, .refused .zoneForbidsLoad)
      else if p.arbiter.zones[k].grantable then (p.give c k, .granted)
      else (p.joined c k cls).afterJoin c k cls := by
  unfold Part.claimRequest
  rw [if_neg (not_not_intro hm)]
  simp only [p.withdrawClaim_of_none c hc, hb, p.zone_fin k, p.joinClaim_eq c k cls]

theorem Part.claimRequest_blocked {d : Direction} (hm : p.mgmt.mode = .run) (hc : p.claim c = none)
    (hb : p.beyond c d = some k.val) (h : p.arbiter.zones[k].blocked = true) :
    p.claimRequest c d cls = (p, .refused .zoneBlocked) := by
  rw [Part.claimRequest_eq hm hc hb, if_pos h]

theorem Part.claimRequest_forbidden {d : Direction} (hm : p.mgmt.mode = .run) (hc : p.claim c = none)
    (hb : p.beyond c d = some k.val) (h : p.arbiter.zones[k].blocked = false)
    (hl : ¬ (p.arbiter.zones[k].loaded = true ∨ (p.hook c).loaded = false)) :
    p.claimRequest c d cls = (p, .refused .zoneForbidsLoad) := by
  have hpermits : p.arbiter.zones[k].permits (p.hook c) = false := Bool.eq_false_iff.2 fun hp => hl ((Zone.permits_iff _ _).1 hp)
  rw [Part.claimRequest_eq hm hc hb, h, if_neg Bool.false_ne_true, hpermits]
  rfl

theorem Part.claimRequest_granted {d : Direction} (hm : p.mgmt.mode = .run) (hc : p.claim c = none)
    (hb : p.beyond c d = some k.val) (h : p.arbiter.zones[k].blocked = false)
    (hl : p.arbiter.zones[k].loaded = true ∨ (p.hook c).loaded = false)
    (hf : p.arbiter.zones[k].grant = none ∧ p.arbiter.zones[k].hold = none ∧ p.arbiter.zones[k].bayHold.any = false) :
    p.claimRequest c d cls = (p.give c k, .granted) := by
  rw [Part.claimRequest_eq hm hc hb, h, if_neg Bool.false_ne_true, (Zone.permits_iff _ _).2 hl,
    (Zone.grantable_iff _).2 ⟨hf, h⟩]
  rfl

theorem Part.claimRequest_joins {d : Direction} (hm : p.mgmt.mode = .run) (hc : p.claim c = none)
    (hb : p.beyond c d = some k.val) (h : p.arbiter.zones[k].blocked = false)
    (hl : p.arbiter.zones[k].loaded = true ∨ (p.hook c).loaded = false)
    (hf : ¬ (p.arbiter.zones[k].grant = none ∧ p.arbiter.zones[k].hold = none ∧ p.arbiter.zones[k].bayHold.any = false)) :
    p.claimRequest c d cls = (p.joined c k cls).afterJoin c k cls := by
  have hgrantable : p.arbiter.zones[k].grantable = false := Bool.eq_false_iff.2 fun hg => hf ((Zone.grantable_iff _).1 hg).1
  rw [Part.claimRequest_eq hm hc hb, h, if_neg Bool.false_ne_true, (Zone.permits_iff _ _).2 hl, hgrantable]
  rfl

end

end Sys2Proof.Machine
end

section
/-! O60. The way a crane gives (R38, R39), and the answers to claim requests. -/

namespace Sys2Proof.Machine

/-! ## What a grant does not touch -/

section
variable {p q : Part} (hz : ∀ k, (q.zone k).entry = (p.zone k).entry)
include hz

theorem Part.zoneOf_congr (x : Nat) : q.zoneOf x = p.zoneOf x := by
  have hdefined : ∀ k, (q.zone k).defined = (p.zone k).defined := fun k => congrArg ZoneEntry.defined (hz k)
  have hstart : ∀ k, (q.zone k).start = (p.zone k).start := fun k => congrArg ZoneEntry.start (hz k)
  simp only [Part.zoneOf, hdefined, hstart]

/-- The travel speed follows the tables and the records, not the grants (R48). -/
theorem Part.travelSpeed_congr (ht : q.tracker = p.tracker) (he : q.bays.entries = p.bays.entries)
    (hs : ∀ b, (q.bay b).state = (p.bay b).state) (c : Fin 4) (x speed : Nat) :
    q.travelSpeed c x speed = p.travelSpeed c x speed := by
  have hcap : ∀ k, (q.zone k).cap = (p.zone k).cap := fun k => congrArg ZoneEntry.cap (hz k)
  have hforce : ∀ k, q.capInForce (q.zone k) = p.capInForce (p.zone k) := by
    intro k
    have hbay : (q.zone k).bay = (p.zone k).bay := congrArg ZoneEntry.bay (hz k)
    simp only [Part.capInForce, hcap k, hbay, Part.bayEntry, he, hs]
  have hlowest : ∀ a b, q.lowestCap a b = p.lowestCap a b := by
    intro a b
    simp only [Part.lowestCap, hforce, hcap]
  have hx : q.craneX c = p.craneX c := by rw [Part.craneX, Part.craneX, Part.record, Part.record, ht]
  have hentry : q.entry c = p.entry c := by rw [Part.entry, Part.entry, ht]
  simp only [Part.travelSpeed, hlowest, Part.zoneOf_congr hz, hx, hentry]

end

theorem Part.give_entry (p : Part) (c : Fin 4) (k : Fin 32) (j : Nat) : ((p.give c k).zone j).entry = (p.zone j).entry :=
  (p.give_keeps (S := Scope.wide) c k).zones j

theorem Part.give_travelSpeed (p : Part) (c : Fin 4) (k : Fin 32) (y : Fin 4) (x speed : Nat) :
    (p.give c k).travelSpeed y x speed = p.travelSpeed y x speed := by
  refine Part.travelSpeed_congr (p.give_entry c k) ?_ ?_ (fun b => ?_) y x speed
  · rw [Part.give_eq]
  · rw [Part.give_eq]
  · rw [Part.bay, Part.give_eq, Part.bay]

/-! ## A grant that grows by one zone (R26) -/

/-- The zones of a run that grows to the west. -/
theorem Part.give_west {p : Part} {c : Fin 4} {k : Fin 32} {r : Run} (hr : p.run c = some r) (hk : k.val + 1 = r.lo)
    (hle : r.lo ≤ r.hi) : p.give c k = p.regrant c r k.val r.hi := by
  rw [Part.give_eq, hr]
  simp only [r.extend_west hk hle]
  refine congrArg (fun zs : Vector Zone 32 => { p with arbiter := { p.arbiter with
    zones := zs, runs := p.arbiter.runs.set c (some ⟨k.val, r.hi⟩) } }) ?_
  refine Vector.ext fun i hi => ?_
  simp only [Vector.getElem_set, Vector.getElem_ofFn, Fin.getElem_fin]
  by_cases hik : k.val = i
  · subst hik
    rw [if_pos rfl, if_neg (by omega), if_pos (by omega)]
  · rw [if_neg hik, if_neg (by omega), if_neg (by omega)]

theorem Part.give_east {p : Part} {c : Fin 4} {k : Fin 32} {r : Run} (hr : p.run c = some r) (hk : k.val = r.hi + 1)
    (hle : r.lo ≤ r.hi) : p.give c k = p.regrant c r r.lo k.val := by
  rw [Part.give_eq, hr]
  simp only [r.extend_east hk]
  refine congrArg (fun zs : Vector Zone 32 => { p with arbiter := { p.arbiter with
    zones := zs, runs := p.arbiter.runs.set c (some ⟨r.lo, k.val⟩) } }) ?_
  refine Vector.ext fun i hi => ?_
  simp only [Vector.getElem_set, Vector.getElem_ofFn, Fin.getElem_fin]
  by_cases hik : k.val = i
  · subst hik
    rw [if_pos rfl, if_neg (by omega), if_pos (by omega)]
  · rw [if_neg hik, if_neg (by omega), if_neg (by omega)]

/-- A run that grows by one zone at one end (R26). -/
def Run.grown (r : Run) : Direction → Run
  | .east => ⟨r.lo, r.hi + 1⟩
  | .west => ⟨r.lo - 1, r.hi⟩

theorem Part.extend_of_beyond {p : Part} {c : Fin 4} {d : Direction} {r : Run} {k : Nat} (hr : p.run c = some r)
    (hle : r.lo ≤ r.hi) (hb : p.beyond c d = some k) :
    r.extend k = r.grown d := by
  rw [Part.beyond, hr] at hb
  cases d with
  | east =>
    obtain ⟨_, hk⟩ := (Option.ite_none_right_eq_some ..).1 hb
    rw [r.extend_east (Option.some.inj hk).symm, ← Option.some.inj hk]
    rfl
  | west =>
    obtain ⟨hlo, hk⟩ := (Option.ite_none_left_eq_some ..).1 hb
    obtain rfl := Option.some.inj hk
    exact r.extend_west (by omega) hle

/-! ## Giving way (R38, R39) -/

/-- The MOVE_TO of a give-way enters NORMAL with tag 0, and GIVE_WAY is told. -/
def Part.gaveWay (p : Part) (y other : Fin 4) (zone x speed : Nat) : Part :=
  (p.onLink (Link.pushNormal (.giveWay y) (craneStation y) .moveTo
    (commandPayload 0 ⟨.moveTo, x, p.craneY y, (p.entry y).zSafe, 0⟩ speed))).notify .giveWay y.val x other.val zone

section
variable {p : Part} {y other : Fin 4} {zone : Nat}

/-- The crane is permitted to give way, has no stop cause, is READY or MOVING, and NORMAL has room (R38). -/
theorem Part.giveWay_ready_iff :
    (p.giveWayAttempted y && p.link.normalRoom) = true ↔ (p.entry y).giveWay = true ∧ (p.latch y).causes.any = false
      ∧ (∃ t : Telegram, (p.record y).last = some t ∧ (t.drive = .ready ∨ t.drive = .moving)) ∧ p.link.normal.length < 16 := by
  simp only [Part.giveWayAttempted, Bool.and_eq_true, Bool.not_eq_true', Option.any_eq_true, Bool.or_eq_true, beq_iff_eq,
    Link.normalRoom_iff, and_assoc]

theorem Part.giveWay_of_unready (h : (p.giveWayAttempted y && p.link.normalRoom) = false) : p.giveWay y other zone = p := by
  unfold Part.giveWay
  refine if_pos ?_
  revert h
  cases p.giveWayAttempted y <;> cases p.link.normalRoom <;> simp

theorem Part.giveWay_of_outside (h : p.giveWayTarget y other zone < 0 ∨ (p.params.length : Int) ≤ p.giveWayTarget y other zone) :
    p.giveWay y other zone = p := by
  unfold Part.giveWay
  refine if_pos ?_
  simp only [Bool.or_eq_true, decide_eq_true_eq]
  exact .inl (h.elim (fun h => .inl (.inr h)) .inr)

/-- A crane that may give way, at a target on the runway: what the zones of its span there say (R38, R39). -/
theorem Part.giveWay_of_ready {x : Nat} (h : (p.giveWayAttempted y && p.link.normalRoom) = true)
    (hx : p.giveWayTarget y other zone = x) (hlt : x < p.params.length) :
    p.giveWay y other zone = match p.giveWayZones y other x with
      | none => p
      | some none => p.gaveWay y other zone x (p.travelSpeed y x 0)
      | some (some k) =>
        if (p.zone k).grantable && (p.zone k).permits (p.hook y) then
          (p.give y k).gaveWay y other zone x ((p.give y k).travelSpeed y x 0) else p := by
  obtain ⟨ha, hn⟩ := Bool.and_eq_true_iff.1 h
  have hguard : (!p.giveWayAttempted y || decide ((x : Int) < 0) || decide ((p.params.length : Int) ≤ x) || !p.link.normalRoom)
      = false := by
    simp [ha, hn, hlt]
  unfold Part.giveWay
  simp only [hx, hguard, Bool.false_eq_true, if_false]
  cases p.giveWayZones y other x with
  | none => rfl
  | some further =>
    cases further with
    | none => rfl
    | some k =>
      simp only []
      cases (p.zone k).grantable && (p.zone k).permits (p.hook y) <;> rfl

/-- The next zone away from the other crane, which the give-way needs besides the grant, and what it then brings (R38). -/
theorem Part.giveWay_further {x : Nat} {k : Fin 32} {q : Part} (h : (p.giveWayAttempted y && p.link.normalRoom) = true)
    (hx : p.giveWayTarget y other zone = x) (hlt : x < p.params.length) (hzones : p.giveWayZones y other x = some (some k.val))
    (hq : p.give y k = q) :
    p.giveWay y other zone = if p.Opens y p.arbiter.zones[k] then
      (q.onLink (Link.pushNormal (.giveWay y) (craneStation y) .moveTo
        (commandPayload 0 ⟨.moveTo, x, p.craneY y, (p.entry y).zSafe, 0⟩ (p.travelSpeed y x 0)))).notify .giveWay y.val x other.val zone
      else p := by
  have hspeed := p.give_travelSpeed y k y x 0
  rw [Part.giveWay_of_ready h hx hlt, hzones]
  simp only [p.zone_fin k, hspeed, ← Part.opens_iff]
  refine if_congr Iff.rfl ?_ rfl
  subst hq
  have htracker : (p.give y k).tracker = p.tracker := by rw [Part.give_eq]
  rw [Part.gaveWay, Part.craneY, Part.record, Part.entry, htracker]
  rfl

end

/-- Settles O60. -/
theorem claimRequestsAreAnswered : Obligations.ClaimRequestsAreAnswered := by
  unfold Obligations.ClaimRequestsAreAnswered
  refine ⟨?_, fun p i j k => p.facing_iff i k j, ?_⟩
  · intro p c d cls k hm hc hb z admits free
    refine ⟨fun h => Part.claimRequest_blocked hm hc hb h, fun h hl => Part.claimRequest_forbidden hm hc hb h hl,
      fun r h hl hf hr hle => ?_, fun h hl hf hn => ?_, ?_⟩
    · rw [Part.claimRequest_granted hm hc hb h hl hf, Part.give_eq, hr]
      simp only [Part.extend_of_beyond hr hle hb]
      cases d <;> rfl
    · rw [Part.claimRequest_joins hm hc hb h hl hf, Part.afterJoin_of_unfaced p c k cls hn]
      rfl
    · intro j cj h hl hj hcj yields
      have hgrant : p.arbiter.zones[k].grant = some j := ((p.facing_iff c k j).1 hj).1
      have hother : j ≠ c := ((p.facing_iff c k j).1 hj).2.1
      have hfree : ¬ free := fun hf => by rw [hf.1] at hgrant; exact absurd hgrant (by simp)
      rw [Part.claimRequest_joins hm hc hb h hl hfree, Part.afterJoin_of_facing p c k cls hj hcj]
      have hyields : ∀ (y other : Fin 4) (n : Nat), other = (if y = c then j else c) →
          (p.joined c k cls).resolveFacing c j y n = yields y other n := fun y other n ho => by
        rw [ho]
        rfl
      rw [hyields c j _ (if_pos rfl).symm, hyields j c _ (if_neg hother).symm]
  · intro p y other zone e target ready
    have htarget : p.giveWayTarget y other zone = target := by
      have hzone := p.zone_fin zone
      simp only [Part.giveWayTarget, hzone]
      rfl
    refine ⟨fun h => Part.giveWay_of_unready (Bool.eq_false_iff.2 fun hr => h (Part.giveWay_ready_iff.1 hr)),
      fun h => Part.giveWay_of_outside (htarget ▸ h), fun x r hready hx hlt hr => ?_⟩
    have hready' := Part.giveWay_ready_iff.2 hready
    have hx' : p.giveWayTarget y other zone = x := htarget.trans hx
    have hzones : p.giveWayZones y other x =
        if y < other then
          if r.hi < (p.zonesAt y x).2 then none else if r.lo ≤ (p.zonesAt y x).1 then some none
            else if (p.zonesAt y x).1 + 1 = r.lo then some (some (p.zonesAt y x).1) else none
        else
          if (p.zonesAt y x).1 < r.lo then none else if (p.zonesAt y x).2 ≤ r.hi then some none
            else if (p.zonesAt y x).2 = r.hi + 1 then some (some (p.zonesAt y x).2) else none := by
      rw [Part.giveWayZones, hr]
      rfl
    generalize p.zonesAt y x = span at hzones
    obtain ⟨a, b⟩ := span
    simp only [] at hzones
    have hbase := Part.giveWay_of_ready (other := other) hready' hx' hlt
    refine ⟨fun ha hb => ?_, fun k hyo hb ha hk hle => ?_, fun k hyo ha hb hk hle => ?_, fun hout => ?_⟩
    · have hwithin : p.giveWayZones y other x = some none := by
        rw [hzones]
        by_cases hyo : y < other
        · rw [if_pos hyo, if_neg (by omega), if_pos ha]
        · rw [if_neg hyo, if_neg (by omega), if_pos hb]
      rw [hbase, hwithin]
      rfl
    · refine Part.giveWay_further hready' hx' hlt ?_ (Part.give_west hr hk hle)
      rw [hzones, if_pos hyo, if_neg (by omega), if_neg (by omega), if_pos (by omega), ha]
    · refine Part.giveWay_further hready' hx' hlt ?_ (Part.give_east hr hk hle)
      rw [hzones, if_neg hyo, if_neg (by omega), if_neg (by omega), if_pos (by omega), hb]
    · have hbeyond : p.giveWayZones y other x = none := by
        rw [hzones]
        by_cases hyo : y < other
        · rw [if_pos hyo] at hout ⊢
          by_cases hb : r.hi < b
          · rw [if_pos hb]
          · rw [if_neg hb, if_neg (by omega), if_neg (by omega)]
        · rw [if_neg hyo] at hout ⊢
          by_cases ha : a < r.lo
          · rw [if_pos ha]
          · rw [if_neg ha, if_neg (by omega), if_neg (by omega)]
      rw [hbase, hbeyond]

end Sys2Proof.Machine
end

section
/-! O59. The grant order (R30), and the zone step of an order that has what it needs, or nothing to gain (R58 to R61). -/

namespace Sys2Proof.Machine

/-! ## The first claim (R30) -/

/-- The better of the best claim so far and the next one. -/
def Waiter.better (best : Option Waiter) (w : Waiter) : Option Waiter :=
  match best with
  | none => some w
  | some b => if b.cls.rank < w.cls.rank then some w else some b

theorem bestWaiter_append (ws : List Waiter) (w : Waiter) : bestWaiter (ws ++ [w]) = Waiter.better (bestWaiter ws) w :=
  List.foldl_append

theorem Waiter.foldl_better_self {w : Waiter} {ws : List Waiter} (h : ∀ v ∈ ws, v.cls.rank ≤ w.cls.rank) :
    ws.foldl Waiter.better (some w) = some w := by
  induction ws with
  | nil => rfl
  | cons v vs ih =>
    have hv : Waiter.better (some w) v = some w := if_neg (Nat.not_lt.2 (h v (List.mem_cons_self ..)))
    rw [List.foldl_cons, hv]
    exact ih fun u hu => h u (List.mem_cons_of_mem _ hu)

/-- A claim is the first of a list: higher than those before it, and not lower than those after it. -/
def Waiter.FirstOf (w : Waiter) (ws : List Waiter) : Prop :=
  ∃ before after, ws = before ++ w :: after ∧ (∀ v ∈ before, v.cls.rank < w.cls.rank) ∧ ∀ v ∈ after, v.cls.rank ≤ w.cls.rank

theorem Waiter.FirstOf.rank_le {w : Waiter} {ws : List Waiter} (h : w.FirstOf ws) : ∀ v ∈ ws, v.cls.rank ≤ w.cls.rank := by
  obtain ⟨before, after, rfl, hb, ha⟩ := h
  intro v hv
  rcases List.mem_append.1 hv with hv | hv
  · exact Nat.le_of_lt (hb v hv)
  · rcases List.mem_cons.1 hv with rfl | hv
    · exact Nat.le_refl _
    · exact ha v hv

theorem Waiter.FirstOf.mem {w : Waiter} {ws : List Waiter} (h : w.FirstOf ws) : w ∈ ws := by
  obtain ⟨before, after, rfl, _, _⟩ := h
  exact List.mem_append_right _ (List.mem_cons_self ..)

theorem bestWaiter_first (ws : List Waiter) : (bestWaiter ws = none ∧ ws = []) ∨ ∃ w, bestWaiter ws = some w ∧ w.FirstOf ws := by
  induction ws using List.reverseRecOn with
  | nil => exact .inl ⟨rfl, rfl⟩
  | append_singleton ws v ih =>
    refine .inr ?_
    rw [bestWaiter_append]
    rcases ih with ⟨hnone, rfl⟩ | ⟨b, hbest, hfirst⟩
    · rw [hnone]
      exact ⟨v, rfl, [], [], rfl, by simp, by simp⟩
    · rw [hbest]
      by_cases hlt : b.cls.rank < v.cls.rank
      · exact ⟨v, if_pos hlt, ws, [], rfl, fun u hu => Nat.lt_of_le_of_lt (hfirst.rank_le u hu) hlt, by simp⟩
      · refine ⟨b, if_neg hlt, ?_⟩
        obtain ⟨before, after, rfl, hb, ha⟩ := hfirst
        refine ⟨before, after ++ [v], by simp, hb, fun u hu => ?_⟩
        rcases List.mem_append.1 hu with hu | hu
        · exact ha u hu
        · obtain rfl := List.mem_singleton.1 hu
          exact Nat.not_lt.1 hlt

/-- The first claim is the highest, and of equal ones the earliest (R30). -/
theorem bestWaiter_eq_some_iff (ws : List Waiter) (w : Waiter) : bestWaiter ws = some w ↔ w.FirstOf ws := by
  constructor
  · intro h
    rcases bestWaiter_first ws with ⟨hnone, _⟩ | ⟨b, hbest, hfirst⟩
    · exact absurd (h.symm.trans hnone) (by simp)
    · obtain rfl := Option.some.inj (h.symm.trans hbest)
      exact hfirst
  · rintro ⟨before, after, rfl, hb, ha⟩
    have hstep : Waiter.better (bestWaiter before) w = some w := by
      rcases bestWaiter_first before with ⟨hnone, _⟩ | ⟨b, hbest, hfirst⟩
      · rw [hnone]
        rfl
      · rw [hbest]
        exact if_pos (hb b hfirst.mem)
    have hfold : bestWaiter (before ++ w :: after) = after.foldl Waiter.better (Waiter.better (bestWaiter before) w) :=
      List.foldl_append
    rw [hfold, hstep, Waiter.foldl_better_self ha]

/-! ## A zone that is handed on (R30, R41) -/

section
variable {p : Part} {k : Fin 32}

theorem Part.handOn_of_held (h : p.arbiter.zones[k].grant.isSome = true ∨ p.arbiter.zones[k].hold.isSome = true
    ∨ p.arbiter.zones[k].bayHold.any = true ∨ p.arbiter.zones[k].blocked = true ∨ p.arbiter.zones[k].waiters = []) :
    p.handOn k = p := by
  have hzone := p.zone_fin k
  by_cases hw : (p.zone k).waiters = []
  · exact p.handOn_of_no_waiters k hw
  · refine if_neg fun hg => ?_
    rw [hzone, Zone.grantable_iff] at hg
    obtain ⟨⟨hgrant, hhold, hbay⟩, hblocked⟩ := hg
    rw [hzone] at hw
    rw [hgrant, hhold, hbay, hblocked] at h
    simp only [Option.isSome_none, Bool.false_eq_true, false_or] at h
    exact hw h

theorem Part.withdrawClaim_hook (p : Part) (c d : Fin 4) : (p.withdrawClaim c).hook d = p.hook d := by
  unfold Part.withdrawClaim
  split
  · rfl
  · unfold Part.setZone
    split <;> rfl

/-- A grantable zone goes to the first claim whose hook may enter (R30, R47). -/
theorem Part.handOn_of_first {w : Waiter} (hg : p.arbiter.zones[k].grantable = true)
    (hw : bestWaiter p.arbiter.zones[k].waiters = some w) (hp : p.arbiter.zones[k].permits (p.hook w.crane) = true) :
    p.handOn k = ((p.withdrawClaim w.crane).give w.crane k).reportGranted w.crane := by
  have hzone := p.zone_fin k
  obtain ⟨n, hn⟩ : ∃ n, (p.zone k).waiters.length = n + 1 := by
    rw [hzone]
    cases hws : p.arbiter.zones[k].waiters with
    | nil => rw [hws] at hw; exact absurd hw (by simp [bestWaiter])
    | cons v vs => exact ⟨vs.length, rfl⟩
  have hhook := p.withdrawClaim_hook w.crane w.crane
  rw [Part.handOn, hzone, if_pos hg, ← hzone, hn, Part.grantOrder, hzone, hw]
  simp only [hhook, hp, if_true]

/-- A claim leaves the zone it waits on (R29). -/
theorem Part.withdrawClaim_eq {c : Fin 4} {cl : Claim} (h : p.claim c = some cl) (hk : cl.zone = k.val) :
    p.withdrawClaim c = { p with arbiter := { p.arbiter with
      zones := p.arbiter.zones.set k (p.arbiter.zones[k].dropWaiter c)
      claims := p.arbiter.claims.set c none } } := by
  have hzone := p.zone_fin k
  rw [Part.withdrawClaim, h]
  simp only [hk, hzone, Part.setZone_eq_withZones]
  rfl

theorem Part.withdrawClaim_give_eq {c : Fin 4} {cl : Claim} (h : p.claim c = some cl) (hk : cl.zone = k.val) :
    (p.withdrawClaim c).give c k = { p with arbiter := {
      zones := p.arbiter.zones.set k { p.arbiter.zones[k].dropWaiter c with grant := some c }
      runs := p.arbiter.runs.set c (some (match p.run c with | some r => r.extend k | none => ⟨k, k⟩))
      claims := p.arbiter.claims.set c none } } := by
  rw [Part.give_eq, Part.withdrawClaim_eq h hk]
  have hset : ∀ z z' : Zone, (p.arbiter.zones.set k z).set k z' = p.arbiter.zones.set k z' := fun z z' => Vector.set_set ..
  have hget : ∀ z : Zone, (p.arbiter.zones.set k z)[k] = z := fun z => Vector.getElem_set_self k.isLt
  simp only [hset, hget]
  rfl

end

end Sys2Proof.Machine
end

section
/-! The zone step of an order that has what it needs, that may go part of the way, or that has nothing to gain (R58 to R61). O59. -/

namespace Sys2Proof.Machine

theorem Part.activeOrder_eq {p : Part} {c : Fin 4} {o : Order} (h : p.order c = some o) (ha : o.active = true) :
    p.activeOrder c = some o := by
  rw [Part.activeOrder, h, Option.filter_some, if_pos ha]

theorem Part.order_of_active {p : Part} {c : Fin 4} {o : Order} (h : p.activeOrder c = some o) :
    p.order c = some o ∧ o.active = true := Option.filter_eq_some_iff.1 h

theorem Part.setOrder_setOrder (p : Part) (c : Fin 4) (o o' : Option Order) : (p.setOrder c o).setOrder c o' = p.setOrder c o' :=
  congrArg (fun os => { p with gate := { p.gate with orders := os } }) (Vector.set_set ..)

theorem Part.setOrder_self {p : Part} {c : Fin 4} {o : Option Order} (h : p.order c = o) : p.setOrder c o = p := by
  subst h
  exact congrArg (fun os => { p with gate := { p.gate with orders := os } }) (Vector.set_getElem_self c.isLt)

/-- A crane that has no place in the turn of the pending commands. -/
theorem Part.dropTurn_of_absent {p : Part} {c : Fin 4} (h : c ∉ p.gate.pendingTurn) : p.dropTurn c = p := by
  have hfilter : (p.gate.pendingTurn.filter fun d => d != c) = p.gate.pendingTurn := by
    rw [List.filter_eq_self]
    intro d hd
    exact bne_iff_ne.2 fun hdc => h (hdc ▸ hd)
  rw [Part.dropTurn, hfilter]

section
variable {p : Part} {c : Fin 4} {o : Order} {g : Run}

/-! ## The span of an order (R58, R59) -/

theorem Part.wants_east {bound : Nat} (hr : p.run c = some g) : p.wants c .east bound = decide (g.hi < bound) := by
  simp only [Part.wants, hr]

theorem Part.wants_west {bound : Nat} (hr : p.run c = some g) : p.wants c .west bound = decide (bound < g.lo) := by
  simp only [Part.wants, hr]

theorem Part.claimToward_done {n : Nat} {d : Direction} {cls : ClaimClass} {bound : Nat} (h : p.wants c d bound = false) :
    Part.claimToward (n + 1) p c d cls bound = (p, .done) := by
  rw [Part.claimToward, h]
  rfl

theorem Part.wholeSpan_iff (hr : p.run c = some g) :
    p.wholeSpan c o = true ↔ g.lo ≤ (p.zonesAt c o.target.x).1 ∧ (p.zonesAt c o.target.x).2 ≤ g.hi := by
  rw [Part.wholeSpan, hr]
  simp only [Bool.and_eq_true, decide_eq_true_eq]
  rfl

/-- An order that has its whole span claims nothing (R58). -/
theorem Part.claiming_of_whole (hr : p.run c = some g) (hlo : g.lo ≤ (p.zonesAt c o.target.x).1)
    (hhi : (p.zonesAt c o.target.x).2 ≤ g.hi) : p.claiming c o = (p, .done) := by
  have heast : p.wants c .east (p.neededZones c o).2 = false := by
    rw [Part.wants_east hr]
    exact decide_eq_false (Nat.not_lt.2 hhi)
  have hwest : p.wants c .west (p.neededZones c o).1 = false := by
    rw [Part.wants_west hr]
    exact decide_eq_false (Nat.not_lt.2 hlo)
  unfold Part.claiming
  by_cases hx : o.target.x < p.craneX c
  · simp only [if_pos hx, Part.claimToward_done hwest, Part.claimToward_done heast]
  · simp only [if_neg hx, Part.claimToward_done hwest, Part.claimToward_done heast]

/-- The candidate of a step that makes progress (R59). -/
theorem Part.stepsTo_iff {x : Nat} (hr : p.run c = some g) :
    p.StepsTo c o.target.x g x ↔ p.candidate c o = some x ∧ progress (p.craneX c) o.target.x x = true := by
  simp only [Part.StepsTo, Part.candidate, hr, progress, Bool.or_eq_true, Bool.and_eq_true, decide_eq_true_eq]
  generalize hlo : ((p.zone g.lo).start : Int) + (p.entry c).westExt + (p.entry c).margin + (p.entry c).allowance = lo
  generalize (p.zoneEnd g.hi : Int) - 1 - (p.entry c).eastExt - (p.entry c).margin - (p.entry c).allowance = hi
  have hnonneg : 0 ≤ lo := by omega
  by_cases hempty : hi < lo
  · rw [if_pos hempty]
    constructor
    · rintro ⟨h, _⟩
      omega
    · rintro ⟨h, _⟩
      exact absurd h (by simp)
  · rw [if_neg hempty]
    constructor
    · rintro ⟨_, hx, hprog⟩
      refine ⟨congrArg some ?_, hprog⟩
      omega
    · rintro ⟨hx, hprog⟩
      have hval := Option.some.inj hx
      exact ⟨by omega, by omega, hprog⟩

/-! ## The end of the claims (R59, R60) -/

/-- Every needed zone is granted: the order is FORWARDED with its own command (R59). -/
theorem Part.afterClaims_whole {opening : Bool} (ho : p.activeOrder c = some o) (h : p.wholeSpan c o = true) :
    p.afterClaims c opening none =
      (p.setOrder c (some { o with permitted := o.target.x, state := .forwarded })).prepare c (p.finalCommand c o) := by
  rw [Part.afterClaims, ho]
  simp only [h, Option.isNone_none, Bool.and_self, if_true]
  rfl

/-- Part of the span is granted and gains something: a MOVE_TO to the candidate (R59, R60). -/
theorem Part.afterClaims_step {opening : Bool} {refusal : Option Reason} {x : Nat} (ho : p.activeOrder c = some o)
    (hw : (p.wholeSpan c o && refusal.isNone) = false) (hr : p.run c = some g) (hx : p.StepsTo c o.target.x g x) :
    p.afterClaims c opening refusal =
      let o' : Order := { o with permitted := x, state := .partly, short := refusal.or o.short }
      let q := (p.setOrder c (some o')).prepare c (p.partialCommand c o x)
      if refusal.isSome || opening then q.orderVerdict c o' .clamped refusal else q := by
  obtain ⟨hcand, hprog⟩ := (Part.stepsTo_iff hr).1 hx
  rw [Part.afterClaims, ho]
  simp only [hw, Bool.false_eq_true, if_false, hcand, hprog, if_true]
  cases refusal with
  | none => cases opening <;> rfl
  | some why => rfl

/-- Nothing to gain (R59, R60). -/
theorem Part.afterClaims_stuck {opening : Bool} {refusal : Option Reason} (ho : p.activeOrder c = some o)
    (hw : (p.wholeSpan c o && refusal.isNone) = false) (hr : p.run c = some g) (hx : ∀ x : Nat, ¬ p.StepsTo c o.target.x g x) :
    p.afterClaims c opening refusal = p.noProgress c o opening refusal := by
  rw [Part.afterClaims, ho]
  simp only [hw, Bool.false_eq_true, if_false]
  cases hcand : p.candidate c o with
  | none => rfl
  | some x =>
    have hprog : ¬ progress (p.craneX c) o.target.x x = true := fun h => hx x ((Part.stepsTo_iff hr).2 ⟨hcand, h⟩)
    simp only [hprog, Bool.false_eq_true, if_false]

/-! ## A command that is prepared (R61) -/

theorem Part.sendCommand_eq (p : Part) (c : Fin 4) (o : Order) (cmd : Command) :
    p.sendCommand c o cmd =
      let o' : Order := { o with lastSeq := some p.link.seq, lastDone := false, pending := none }
      let q := (p.withCommand c o.tag o.speed cmd).setOrder c (some o')
      if o.state == .forwarded then q.orderVerdict c o' .passed none else q := rfl

theorem Part.withCommand_setOrder (p : Part) (c d : Fin 4) (o : Option Order) (tag speed : Nat) (cmd : Command) :
    (p.setOrder c o).withCommand d tag speed cmd = (p.withCommand d tag speed cmd).setOrder c o := rfl

/-- A MOVE_TO leaves the order's record and enters NORMAL (R61, R62). -/
theorem Part.forwardCommand_move {cmd : Command} (ho : p.activeOrder c = some o) (hv : cmd.verb = .moveTo) :
    p.forwardCommand c cmd =
      let o' : Order := { o with lastSeq := some p.link.seq, lastDone := false, pending := none }
      let q := (p.withCommand c o.tag o.speed cmd).setOrder c (some o')
      if o.state == .forwarded then q.orderVerdict c o' .passed none else q := by
  rw [Part.forwardCommand, ho]
  simp only [hv]
  rw [Part.sendCommand_eq, Part.withCommand_setOrder]
  simp only [Part.setOrder_setOrder]
  rfl

/-- A MOVE_TO that is prepared while NORMAL has room (R61, R62). -/
theorem Part.prepare_move {cmd : Command} (hn : p.link.normal.length < 16) (ho : p.order c = some o) (ha : o.active = true)
    (hv : cmd.verb = .moveTo) :
    p.prepare c cmd =
      let o' : Order := { o with lastSeq := some p.link.seq, lastDone := false, pending := none }
      let q := ((p.dropTurn c).withCommand c o.tag o.speed cmd).setOrder c (some o')
      if o.state == .forwarded then q.orderVerdict c o' .passed none else q := by
  have hactive : (p.dropTurn c).activeOrder c = some o := Part.activeOrder_eq ho ha
  rw [Part.prepare, (Link.normalRoom_iff _).2 hn, if_pos rfl, Part.forwardCommand_move hactive hv]
  rfl

/-- A command that waits for NORMAL (R61). -/
theorem Part.prepare_full {cmd : Command} (hn : 16 ≤ p.link.normal.length) (ho : p.order c = some o) :
    p.prepare c cmd =
      { p with gate := { p.gate with
          orders := p.gate.orders.set c (some { o with pending := some cmd })
          pendingTurn := if c ∈ p.gate.pendingTurn then p.gate.pendingTurn else p.gate.pendingTurn ++ [c] } } := by
  rw [Part.prepare, (Link.normalRoom_eq_false_iff _).2 hn, if_neg Bool.false_ne_true, ho]
  simp only [List.contains_iff_mem]
  rfl

/-! ## What the gate is told (R61) -/

theorem Part.zoneStep_of_whole {opening : Bool} (ho : p.activeOrder c = some o) (hr : p.run c = some g)
    (hlo : g.lo ≤ (p.zonesAt c o.target.x).1) (hhi : (p.zonesAt c o.target.x).2 ≤ g.hi) :
    p.zoneStep c opening =
      (p.setOrder c (some { o with permitted := o.target.x, state := .forwarded })).prepare c (p.finalCommand c o) := by
  rw [Part.zoneStep, ho]
  simp only [Part.claiming_of_whole hr hlo hhi]
  exact Part.afterClaims_whole ho ((Part.wholeSpan_iff hr).2 ⟨hlo, hhi⟩)

theorem Part.reportGranted_of_forwarded (h : ∀ o, p.activeOrder c = some o → o.state = .forwarded) : p.reportGranted c = p := by
  rw [Part.reportGranted]
  cases ho : p.activeOrder c with
  | none => rfl
  | some o =>
    simp only [h o ho]
    rfl

theorem Part.reportGranted_of_waiting (ho : p.activeOrder c = some o) (hs : o.state = .waiting ∨ o.state = .partly) :
    p.reportGranted c = p.zoneStep c false := by
  rw [Part.reportGranted, ho]
  rcases hs with hs | hs <;> simp only [hs] <;> rfl

/-- A GOTO or PARK is a MOVE_TO to its target (R62). -/
theorem Part.finalCommand_move (h : o.kind = .goto ∨ o.kind = .park) :
    p.finalCommand c o = ⟨.moveTo, o.target.x, o.target.y, (p.entry c).zSafe, 0⟩ := by
  rcases h with h | h <;> simp only [Part.finalCommand, h]

/-- A GOTO or PARK that has its whole span, with NORMAL free (R59, R61, R62). -/
theorem Part.prepare_whole {cmd : Command} (hn : p.link.normal.length < 16) (hv : cmd.verb = .moveTo) :
    (p.setOrder c (some { o with permitted := o.target.x, state := .forwarded })).prepare c cmd =
      (((p.dropTurn c).withCommand c o.tag o.speed cmd).setOrder c (some { o with
        permitted := o.target.x, state := .forwarded, lastSeq := some p.link.seq, lastDone := false, pending := none })).verdict
          c o.tag .passed none o.target.x o.target.x := by
  have horder := p.setOrder_order c (some { o with permitted := o.target.x, state := .forwarded })
  rw [Part.prepare_move (p := p.setOrder c _) hn horder rfl hv]
  exact congrArg (fun q : Part => q.verdict c o.tag .passed none o.target.x o.target.x)
    (Part.setOrder_setOrder ((p.dropTurn c).withCommand c o.tag o.speed cmd) c _ _)

end

/-- No progress on a refusal: a PARTIAL order is clamped and ends with its MOVE_TO, a WAITING one ends REFUSED (R60). -/
theorem Part.noProgress_refused (p : Part) (c : Fin 4) (o : Order) (opening : Bool) (why : Reason) :
    p.noProgress c o opening (some why) =
      let short : Order := { o with permitted := p.craneX c, short := some why }
      let clamped := (p.setOrder c (some short)).verdict c o.tag .clamped (some why) o.target.x (p.craneX c)
      if o.state == .partly then if o.lastDone then clamped.endOrder c true none else clamped
      else (p.setOrder c (some short)).endOrder c false (some (.refused, some why)) := rfl

/-- Settles O59. -/
theorem freeZoneGoesToTheFirstClaim : Obligations.FreeZoneGoesToTheFirstClaim := by
  unfold Obligations.FreeZoneGoesToTheFirstClaim
  refine ⟨bestWaiter_eq_some_iff, fun p k => ?_, fun p c h => Part.reportGranted_of_forwarded h,
    fun p c o g ho hs hkind hr hlo hhi => ?_, fun p c o g why ho hr hx => ?_⟩
  · intro z
    refine ⟨fun h => Part.handOn_of_held h, fun w hgrant hhold hbay hblocked hw hclaim hadmits => ?_⟩
    rw [Part.handOn_of_first ((Zone.grantable_iff _).2 ⟨⟨hgrant, hhold, hbay⟩, hblocked⟩) hw ((Zone.permits_iff _ _).2 hadmits),
      Part.withdrawClaim_give_eq hclaim rfl]
    cases p.run w.crane <;> rfl
  · intro cmd whole
    have hgranted : p.reportGranted c = (p.setOrder c (some whole)).prepare c cmd := by
      rw [Part.reportGranted_of_waiting ho hs, Part.zoneStep_of_whole ho hr hlo hhi, Part.finalCommand_move hkind]
    rw [hgranted]
    refine ⟨fun hn => Part.prepare_whole hn rfl, fun hn => ?_⟩
    rw [Part.prepare_full (p := p.setOrder c (some whole)) hn (p.setOrder_order c _)]
    have hset := Part.setOrder_setOrder p c (some whole) (some { whole with pending := some cmd })
    exact congrArg (fun q : Part => { q with gate := { q.gate with
      pendingTurn := if c ∈ p.gate.pendingTurn then p.gate.pendingTurn else p.gate.pendingTurn ++ [c] } }) hset
  · intro short
    have hrefused : p.reportRefused c why = p.noProgress c o false (some why) := by
      rw [Part.reportRefused, Part.afterClaims_stuck ho (by simp) hr hx]
    rw [hrefused, Part.noProgress_refused]
    refine ⟨fun hs => ?_, fun hs => ?_⟩
    · exact if_pos (beq_iff_eq.2 hs)
    · exact if_neg (by rw [hs]; decide)

end Sys2Proof.Machine
end

section
/-! O20. Orders that are accepted: whole at once, in part, held or refused (R52 to R62). -/

namespace Sys2Proof.Machine

theorem readOrder_kind {k : OrderKind} {b : List Byte} {r : OrderRequest} (h : readOrder k b = some r) : r.kind = k := by
  unfold readOrder at h
  repeat' split at h
  all_goals
    cases h
    try rfl

/-! ## Acceptance (R55) -/

theorem Part.judgeResolved_accepted {p : Part} {c : Fin 4} {r : OrderRequest} {t : Point}
    (h : p.orderChecks c r.kind r.loc t = none) (hn : p.link.normal.length < 16) (ho : p.activeOrder c = none) :
    p.judgeResolved c r t = (p.setOrder c (some (p.newOrder c r t))).zoneStep c true := by
  simp only [Part.judgeResolved, h, (Link.normalRoom_iff _).2 hn, if_true, Part.acceptOrder, p.endOrder_of_none c _ _ ho]

/-- An order that passes every check enters the record and takes its zone step (R55). -/
theorem exec_accepted {s : State} {c : Fin 4} {f : Frame} {r : OrderRequest} {t : Point} {form : Instr × Kind × OrderKind} {q : Part}
    (hform : form ∈ orderForms) (ho : s.OrderFor form.2.1 c f) (hread : readOrder form.2.2 f.payload = some r)
    (ha : s.Accepts c r t) (h : (s.part.dropSup.setOrder c (some (s.part.newOrder c r t))).zoneStep c true = q) :
    exec form.1 s = .next (s.withPart q) := by
  obtain ⟨hq, hmode, htracked, hlatch, hdrive, hidle, hresolve, hchecks, hroom, _⟩ := ha
  have hpassed : s.part.dropSup.craneChecks c = none := by
    rw [Part.craneChecks_drive (p := s.part.dropSup) hmode htracked hlatch]
    obtain ⟨x, hlast, hx⟩ := (Option.any_eq_true _ _).1 hdrive
    have hlast' : (s.part.dropSup.record c).last = some x := hlast
    rw [hlast', Option.map_some]
    rw [Bool.or_eq_true, beq_iff_eq, beq_iff_eq] at hx
    rcases hx with hx | hx <;> rw [hx] <;> rfl
  have hnot : s.part.dropSup.underWay c = false := by
    have hidle' : s.part.dropSup.activeOrder c = none := hidle
    rw [Part.underWay, hidle']
    rfl
  refine exec_order hform ho hq ?_
  rw [Part.takeOrder_read hread, Part.judgeOrder_resolved hpassed hnot hresolve,
    Part.judgeResolved_accepted (p := s.part.dropSup) hchecks hroom hidle]
  exact h

/-! ## The first zone asked for (R58) -/

section
variable {p : Part} {c : Fin 4} {o : Order} {g : Run}

/-- The claims in two directions, one after the other (R58). -/
def Part.claimBoth (p : Part) (c : Fin 4) (cls : ClaimClass) (d1 d2 : Direction) (b1 b2 : Nat) : Part × ClaimEnd :=
  match p.claimToward 33 c d1 cls b1 with
  | (p, .done) => p.claimToward 33 c d2 cls b2
  | r => r

theorem Part.claiming_eq (p : Part) (c : Fin 4) (o : Order) : p.claiming c o =
    if o.target.x < p.craneX c then p.claimBoth c o.cls .west .east (p.zonesAt c o.target.x).1 (p.zonesAt c o.target.x).2
    else p.claimBoth c o.cls .east .west (p.zonesAt c o.target.x).2 (p.zonesAt c o.target.x).1 := by
  unfold Part.claiming
  by_cases hx : o.target.x < p.craneX c
  · rw [if_pos hx]
    simp only [if_pos hx]
    rfl
  · rw [if_neg hx]
    simp only [if_neg hx]
    rfl

theorem Part.claimBoth_first {cls : ClaimClass} {d1 d2 : Direction} {b1 b2 : Nat} {q : Part} {e : ClaimEnd}
    (h : p.claimToward 33 c d1 cls b1 = (q, e)) (he : e ≠ .done) : p.claimBoth c cls d1 d2 b1 b2 = (q, e) := by
  rw [Part.claimBoth, h]
  cases e with
  | done => exact absurd rfl he
  | _ => rfl

theorem Part.claimBoth_second {cls : ClaimClass} {d1 d2 : Direction} {b1 b2 : Nat} (h : p.wants c d1 b1 = false) :
    p.claimBoth c cls d1 d2 b1 b2 = p.claimToward 33 c d2 cls b2 := by
  rw [Part.claimBoth, Part.claimToward_done h]

theorem Part.beyond_east {k : Nat} (hr : p.run c = some g) (hk : k = g.hi + 1) (hd : (p.zone k).defined = true) :
    p.beyond c .east = some k := by
  subst hk
  rw [Part.beyond, hr]
  exact if_pos hd

theorem Part.beyond_west {k : Nat} (hr : p.run c = some g) (hk : k + 1 = g.lo) : p.beyond c .west = some k := by
  rw [Part.beyond, hr]
  exact (if_neg (by omega)).trans (congrArg some (by omega))

/-- The zone that a zone step asks for first, and how its claiming ends when that zone is not granted at once (R58). -/
theorem Part.claiming_asks {k : Fin 32} (hr : p.run c = some g) (hasks : p.AsksFor c o.target.x g k.val)
    (hd : p.arbiter.zones[k].defined = true) :
    ∃ d b, p.beyond c d = some k.val ∧ p.wants c d b = true
      ∧ ∀ q e, p.claimToward 33 c d o.cls b = (q, e) → e ≠ .done → p.claiming c o = (q, e) := by
  have hdefined : (p.zone k.val).defined = true := by rw [p.zone_fin k]; exact hd
  have heast := fun b => Part.wants_east (p := p) (c := c) (bound := b) hr
  have hwest := fun b => Part.wants_west (p := p) (c := c) (bound := b) hr
  have hclaiming := p.claiming_eq c o
  have hasks' : if p.craneX c ≤ o.target.x then
      (g.hi < (p.zonesAt c o.target.x).2 ∧ k.val = g.hi + 1)
        ∨ ((p.zonesAt c o.target.x).2 ≤ g.hi ∧ (p.zonesAt c o.target.x).1 < g.lo ∧ k.val + 1 = g.lo)
    else ((p.zonesAt c o.target.x).1 < g.lo ∧ k.val + 1 = g.lo)
        ∨ (g.lo ≤ (p.zonesAt c o.target.x).1 ∧ g.hi < (p.zonesAt c o.target.x).2 ∧ k.val = g.hi + 1) := hasks
  generalize p.zonesAt c o.target.x = span at hclaiming hasks'
  obtain ⟨lo, hi⟩ := span
  by_cases hx : p.craneX c ≤ o.target.x
  · rw [if_pos hx] at hasks'
    rw [if_neg (Nat.not_lt.2 hx)] at hclaiming
    rcases hasks' with ⟨hout, hk⟩ | ⟨hin, hout, hk⟩
    · exact ⟨.east, hi, Part.beyond_east hr hk hdefined, (heast hi).trans (decide_eq_true hout),
        fun q e h he => hclaiming.trans (Part.claimBoth_first h he)⟩
    · exact ⟨.west, lo, Part.beyond_west hr hk, (hwest lo).trans (decide_eq_true hout),
        fun q e h _ => (hclaiming.trans (Part.claimBoth_second ((heast hi).trans (decide_eq_false (Nat.not_lt.2 hin))))).trans h⟩
  · rw [if_neg hx] at hasks'
    rw [if_pos (Nat.not_le.1 hx)] at hclaiming
    rcases hasks' with ⟨hout, hk⟩ | ⟨hin, hout, hk⟩
    · exact ⟨.west, lo, Part.beyond_west hr hk, (hwest lo).trans (decide_eq_true hout),
        fun q e h he => hclaiming.trans (Part.claimBoth_first h he)⟩
    · exact ⟨.east, hi, Part.beyond_east hr hk hdefined, (heast hi).trans (decide_eq_true hout),
        fun q e h _ => (hclaiming.trans (Part.claimBoth_second ((hwest lo).trans (decide_eq_false (Nat.not_lt.2 hin))))).trans h⟩

theorem Part.claimToward_waits {n : Nat} {d : Direction} {cls : ClaimClass} {b : Nat} {q : Part} (hw : p.wants c d b = true)
    (h : p.claimRequest c d cls = (q, .wait)) : Part.claimToward (n + 1) p c d cls b = (q, .waits) := by
  rw [Part.claimToward, hw, h]
  rfl

theorem Part.claimToward_refused {n : Nat} {d : Direction} {cls : ClaimClass} {b : Nat} {q : Part} {why : Reason}
    (hw : p.wants c d b = true) (h : p.claimRequest c d cls = (q, .refused why)) :
    Part.claimToward (n + 1) p c d cls b = (q, .refused why) := by
  rw [Part.claimToward, hw, h]
  rfl

/-- A zone step whose first zone is refused (R58, R60). -/
theorem Part.zoneStep_refused {k : Fin 32} {opening : Bool} {why : Reason} (ho : p.activeOrder c = some o) (hr : p.run c = some g)
    (hasks : p.AsksFor c o.target.x g k.val) (hd : p.arbiter.zones[k].defined = true)
    (h : ∀ d, p.beyond c d = some k.val → p.claimRequest c d o.cls = (p, .refused why)) :
    p.zoneStep c opening = p.afterClaims c opening (some why) := by
  obtain ⟨d, b, hbeyond, hwants, hclaiming⟩ := Part.claiming_asks hr hasks hd
  rw [Part.zoneStep, ho]
  simp only [hclaiming _ _ (Part.claimToward_refused hwants (h d hbeyond)) (by simp)]

/-- A zone step whose first zone's claim waits (R58, R59). -/
theorem Part.zoneStep_waits {k : Fin 32} {opening : Bool} {q : Part} (ho : p.activeOrder c = some o) (hr : p.run c = some g)
    (hasks : p.AsksFor c o.target.x g k.val) (hd : p.arbiter.zones[k].defined = true)
    (h : ∀ d, p.beyond c d = some k.val → p.claimRequest c d o.cls = (q, .wait)) :
    p.zoneStep c opening = q.afterClaims c opening none := by
  obtain ⟨d, b, hbeyond, hwants, hclaiming⟩ := Part.claiming_asks hr hasks hd
  rw [Part.zoneStep, ho]
  simp only [hclaiming _ _ (Part.claimToward_waits hwants (h d hbeyond)) (by simp)]

/-- A crane that asks for a zone has not its whole span. -/
theorem Part.wholeSpan_of_asks {k : Nat} (hr : p.run c = some g) (hasks : p.AsksFor c o.target.x g k) : p.wholeSpan c o = false := by
  refine Bool.eq_false_iff.2 fun h => ?_
  obtain ⟨hlo, hhi⟩ := (Part.wholeSpan_iff hr).1 h
  simp only [Part.AsksFor] at hasks
  split at hasks
  · omega
  · omega

/-! ## Part of the way (R59, R62) -/

theorem Part.partialCommand_eq (x : Nat) : p.partialCommand c o x =
    ⟨.moveTo, x, if o.kind = .goto ∨ o.kind = .park then o.target.y else p.craneY c, (p.entry c).zSafe, 0⟩ := by
  cases h : o.kind <;> simp [Part.partialCommand, h]

/-- An order that may go part of the way is PARTIAL and CLAMPED (R59, R60). -/
theorem Part.afterClaims_clamped {refusal : Option Reason} {x : Nat} (ho : p.order c = some o) (ha : o.active = true)
    (hn : p.link.normal.length < 16) (ht : c ∉ p.gate.pendingTurn) (hw : (p.wholeSpan c o && refusal.isNone) = false)
    (hr : p.run c = some g) (hx : p.StepsTo c o.target.x g x) :
    p.afterClaims c true refusal =
      ((p.withCommand c o.tag o.speed
        ⟨.moveTo, x, if o.kind = .goto ∨ o.kind = .park then o.target.y else p.craneY c, (p.entry c).zSafe, 0⟩).setOrder c
        (some { o with permitted := x, state := .partly, short := refusal.or o.short,
                       lastSeq := some p.link.seq, lastDone := false, pending := none })).verdict c o.tag .clamped refusal
          o.target.x x := by
  rw [Part.afterClaims_step (Part.activeOrder_eq ho ha) hw hr hx, Bool.or_true, ← Part.partialCommand_eq]
  simp only [if_true]
  have horder := p.setOrder_order c (some { o with permitted := x, state := .partly, short := refusal.or o.short })
  rw [Part.prepare_move (p := p.setOrder c _) hn horder rfl rfl]
  have hturn := Part.dropTurn_of_absent (p := p.setOrder c
    (some { o with permitted := x, state := .partly, short := refusal.or o.short })) ht
  simp only [hturn, Part.withCommand_setOrder, Part.setOrder_setOrder]
  rfl

/-! ## A claim that has joined does not move the zones (R27) -/

theorem Part.joined_entry (k : Fin 32) (cls : ClaimClass) (j : Nat) : ((p.joined c k cls).zone j).entry = (p.zone j).entry := by
  rw [← Part.joinClaim_eq]
  exact (p.joinClaim_keeps (S := Scope.wide) c k cls).zones j

theorem Part.joined_zonesAt (k : Fin 32) (cls : ClaimClass) (x : Nat) : (p.joined c k cls).zonesAt c x = p.zonesAt c x := by
  have hzone := Part.zoneOf_congr (p.joined_entry (c := c) k cls)
  exact Prod.ext (hzone _) (hzone _)

theorem Part.joined_stepsTo (k : Fin 32) (cls : ClaimClass) (x y : Nat) : (p.joined c k cls).StepsTo c x g y ↔ p.StepsTo c x g y := by
  have hstart : ∀ j, ((p.joined c k cls).zone j).start = (p.zone j).start := fun j =>
    congrArg ZoneEntry.start (p.joined_entry (c := c) k cls j)
  have hend : ∀ j, (p.joined c k cls).zoneEnd j = p.zoneEnd j := by
    intro j
    have hdefined : ((p.joined c k cls).zone (j + 1)).defined = (p.zone (j + 1)).defined :=
      congrArg ZoneEntry.defined (p.joined_entry (c := c) k cls (j + 1))
    rw [Part.zoneEnd, Part.zoneEnd, hdefined, hstart]
    rfl
  have hentry : (p.joined c k cls).entry c = p.entry c := rfl
  have hx : (p.joined c k cls).craneX c = p.craneX c := rfl
  simp only [Part.StepsTo, hstart, hend, hentry, hx]

end

/-- An order that its crane may take whole at once is FORWARDED with its own command (R58, R59). -/
theorem exec_granted {s : State} {c : Fin 4} {f : Frame} {r : OrderRequest} {t : Point} {form : Instr × Kind × OrderKind} {q : Part}
    (hform : form ∈ orderForms) (ho : s.OrderFor form.2.1 c f) (hread : readOrder form.2.2 f.payload = some r)
    (hg : s.Granted c r t)
    (h : (s.part.dropSup.setOrder c (some { s.part.newOrder c r t with permitted := t.x, state := .forwarded })).prepare c
      (s.part.finalCommand c (s.part.newOrder c r t)) = q) : exec form.1 s = .next (s.withPart q) := by
  obtain ⟨ha, hgrant⟩ := hg
  obtain ⟨g, hrun, hspan⟩ := (Option.any_eq_true _ _).1 hgrant
  rw [Bool.and_eq_true, decide_eq_true_eq, decide_eq_true_eq] at hspan
  refine exec_accepted hform ho hread ha ?_
  have hactive : (s.part.dropSup.setOrder c (some (s.part.newOrder c r t))).activeOrder c = some (s.part.newOrder c r t) :=
    Part.activeOrder_eq (Part.setOrder_order ..) rfl
  rw [Part.zoneStep_of_whole (g := g) hactive hrun hspan.1 hspan.2, Part.setOrder_setOrder]
  exact h

/-- The opening step of an order that may go part of the way (R59, R60). -/
theorem Part.opening_clamped {p : Part} {c : Fin 4} {o : Order} {g : Run} {refusal : Option Reason} {x : Nat} (ha : o.active = true)
    (hn : p.link.normal.length < 16) (ht : c ∉ p.gate.pendingTurn) (hw : (p.wholeSpan c o && refusal.isNone) = false)
    (hr : p.run c = some g) (hx : p.StepsTo c o.target.x g x) :
    (p.setOrder c (some o)).afterClaims c true refusal =
      ((p.withCommand c o.tag o.speed
        ⟨.moveTo, x, if o.kind = .goto ∨ o.kind = .park then o.target.y else p.craneY c, (p.entry c).zSafe, 0⟩).setOrder c
        (some { o with permitted := x, state := .partly, short := refusal.or o.short,
                       lastSeq := some p.link.seq, lastDone := false, pending := none })).verdict c o.tag .clamped refusal
          o.target.x x := by
  rw [Part.afterClaims_clamped (p := p.setOrder c (some o)) (Part.setOrder_order ..) ha hn ht hw hr hx, Part.withCommand_setOrder,
    Part.setOrder_setOrder]
  rfl

/-- The opening step of an order that waits without progress (R59). -/
theorem Part.opening_held {p : Part} {c : Fin 4} {o : Order} {g : Run} (ha : o.active = true) (hw : p.wholeSpan c o = false)
    (hr : p.run c = some g) (hx : ∀ x : Nat, ¬ p.StepsTo c o.target.x g x) :
    (p.setOrder c (some o)).afterClaims c true none =
      (p.setOrder c (some { o with permitted := p.craneX c })).verdict c o.tag .held none o.target.x (p.craneX c) := by
  have hactive : (p.setOrder c (some o)).activeOrder c = some o := Part.activeOrder_eq (Part.setOrder_order ..) ha
  have hw' : ((p.setOrder c (some o)).wholeSpan c o && (none : Option Reason).isNone) = false := by
    rw [Bool.and_eq_false_iff]
    exact .inl hw
  rw [Part.afterClaims_stuck hactive hw' hr hx, Part.noProgress]
  simp only [Part.setOrder_setOrder, Option.none_or, if_true]
  rfl

/-- The opening step of an order that is refused without progress (R60). -/
theorem Part.opening_refused {p : Part} {c : Fin 4} {o : Order} {g : Run} {why : Reason} (hs : o.state = .waiting)
    (hr : p.run c = some g) (hx : ∀ x : Nat, ¬ p.StepsTo c o.target.x g x) :
    (p.setOrder c (some o)).afterClaims c true (some why) =
      (p.setOrder c (some { o with permitted := p.craneX c, short := some why })).endOrder c false (some (.refused, some why)) := by
  have hactive : (p.setOrder c (some o)).activeOrder c = some o :=
    Part.activeOrder_eq (Part.setOrder_order ..) (by rw [Order.active, hs]; rfl)
  rw [Part.afterClaims_stuck hactive (by simp) hr hx, Part.noProgress_refused]
  have hnot : ¬ (o.state == .partly) = true := by rw [hs]; decide
  simp only [if_neg hnot, Part.setOrder_setOrder]
  rfl

/-- A WAITING order of a crane without a claim and without a source ends REFUSED (R64). -/
theorem Part.endOrder_refused {p : Part} {c : Fin 4} {o : Order} {why : Reason} (hclaim : p.claim c = none)
    (hsource : (p.hook c).source = none) (hturn : c ∉ p.gate.pendingTurn) (hs : o.state = .waiting) :
    (p.setOrder c (some o)).endOrder c false (some (.refused, some why)) =
      ({ p with link := p.link.withoutCommands c }.setOrder c (some { o with state := .ended, pending := none })).verdict
        c o.tag .refused (some why) o.target.x o.permitted := by
  have hactive : (p.setOrder c (some o)).activeOrder c = some o :=
    Part.activeOrder_eq (Part.setOrder_order ..) (by rw [Order.active, hs]; rfl)
  have hdest : (o.setDest && !false) = false := by
    rw [Order.setDest, hs]
    simp
  have hended := Part.endOrder_of_active _ c o .refused (some why) hactive hclaim
  generalize hq : ({ p.setOrder c (some o) with
    link := (p.setOrder c (some o)).link.withoutCommands c
    gate := { (p.setOrder c (some o)).gate with
      pendingTurn := (p.setOrder c (some o)).gate.pendingTurn.filter fun d => d != c
      orders := (p.setOrder c (some o)).gate.orders.set c (some { o with state := .ended, pending := none }) } } : Part) = q at hended
  have hclear : q.clearSource c = q := q.clearSource_of_none c (by rw [← hq]; exact hsource)
  simp only [hdest, hclear, ite_self, Bool.false_eq_true, if_false] at hended
  rw [hended, ← hq]
  refine congrArg (fun q : Part => q.verdict c o.tag .refused (some why) o.target.x o.permitted) ?_
  have hset := Part.setOrder_setOrder ({ p with link := p.link.withoutCommands c }.dropTurn c) c (some o)
    (some { o with state := .ended, pending := none })
  rw [Part.dropTurn_of_absent (p := { p with link := p.link.withoutCommands c }) hturn] at hset
  refine Eq.trans ?_ hset
  have hdrop := Part.dropTurn_of_absent (p := p) hturn
  exact congrArg (fun q : Part => { q.setOrder c (some o) with
    link := p.link.withoutCommands c
    gate := { (q.setOrder c (some o)).gate with
      orders := (p.setOrder c (some o)).gate.orders.set c (some { o with state := .ended, pending := none }) } }) hdrop

/-- Settles O20. -/
theorem moveOrderIsForwarded : Obligations.MoveOrderIsForwarded := by
  unfold Obligations.MoveOrderIsForwarded
  refine ⟨?_, ?_⟩
  · intro s c f r t o p
    have hwhole : r.kind = .goto ∨ r.kind = .park → s.Granted c r t →
        (s.part.dropSup.setOrder c (some { s.part.newOrder c r t with permitted := t.x, state := .forwarded })).prepare c
          (s.part.finalCommand c (s.part.newOrder c r t)) = p.verdict c r.tag .passed none t.x t.x := by
      intro hkind ⟨⟨_, _, _, _, _, _, _, _, hroom, hturn⟩, _⟩
      rw [Part.finalCommand_move (o := s.part.newOrder c r t) hkind]
      refine (Part.prepare_whole (p := s.part.dropSup) (o := s.part.newOrder c r t) hroom rfl).trans ?_
      rw [Part.dropTurn_of_absent (p := s.part.dropSup) hturn]
      rfl
    exact ⟨fun ho hread hg => exec_granted (form := (.goto, .goto, .goto)) (by decide) ho hread hg (hwhole (.inl (readOrder_kind hread)) hg),
      fun ho hread hg => exec_granted (form := (.park, .park, .park)) (by decide) ho hread hg (hwhole (.inr (readOrder_kind hread)) hg)⟩
  · intro s c f r t g k form hform ho hread ha hr hasks hclaim hdef z admits free o move clamped waiting
    have hmode : s.part.mgmt.mode = .run := ha.2.1
    have hroom : s.part.dropSup.link.normal.length < 16 := ha.2.2.2.2.2.2.2.2.1
    have hturn : c ∉ s.part.dropSup.gate.pendingTurn := ha.2.2.2.2.2.2.2.2.2
    have hwhole : s.part.dropSup.wholeSpan c o = false := Part.wholeSpan_of_asks (o := o) hr hasks
    have hactive : (s.part.dropSup.setOrder c (some o)).activeOrder c = some o := Part.activeOrder_eq (Part.setOrder_order ..) rfl
    refine ⟨fun hblocked hadmits hfree hfacing => ?_, fun why hwhy => ?_⟩
    · have hjoins : ∀ d, s.part.beyond c d = some k.val →
          (s.part.dropSup.setOrder c (some o)).claimRequest c d o.cls = ((s.part.dropSup.setOrder c (some o)).joined c k o.cls, .wait) :=
        fun d hb => (Part.claimRequest_joins (p := s.part.dropSup.setOrder c (some o)) hmode hclaim hb hblocked hadmits hfree).trans
          (Part.afterJoin_of_unfaced _ c k _ hfacing)
      have hexec : ∀ q : Part, (waiting.setOrder c (some o)).afterClaims c true none = q → exec form.1 s = .next (s.withPart q) :=
        fun q h => exec_accepted hform ho hread ha
          ((Part.zoneStep_waits (g := g) (k := k) hactive hr hasks hdef hjoins).trans h)
      have hspan : waiting.wholeSpan c o = false := by
        have hzones : waiting.zonesAt c o.target.x = s.part.dropSup.zonesAt c o.target.x := Part.joined_zonesAt k o.cls t.x
        refine Bool.eq_false_iff.2 fun h => ?_
        have hin := (Part.wholeSpan_iff (p := waiting) (g := g) hr).1 h
        rw [hzones] at hin
        exact Bool.false_ne_true (hwhole.symm.trans ((Part.wholeSpan_iff (p := s.part.dropSup) (g := g) hr).2 hin))
      refine ⟨fun x hx => hexec _ ?_, fun hx => hexec _ ?_⟩
      · exact Part.opening_clamped (p := waiting) (g := g) rfl hroom hturn (by rw [hspan]; rfl) hr ((Part.joined_stepsTo k o.cls t.x x).2 hx)
      · exact Part.opening_held (p := waiting) (g := g) rfl hspan hr fun x h => hx x ((Part.joined_stepsTo k o.cls t.x x).1 h)
    · have hrefused : ∀ d, s.part.beyond c d = some k.val → (s.part.dropSup.setOrder c (some o)).claimRequest c d o.cls =
          (s.part.dropSup.setOrder c (some o), .refused why) := by
        intro d hb
        rcases hwhy with ⟨hblocked, rfl⟩ | ⟨hblocked, hadmits, rfl⟩
        · exact Part.claimRequest_blocked (p := s.part.dropSup.setOrder c (some o)) hmode hclaim hb hblocked
        · exact Part.claimRequest_forbidden (p := s.part.dropSup.setOrder c (some o)) hmode hclaim hb hblocked hadmits
      have hexec : ∀ q : Part, (s.part.dropSup.setOrder c (some o)).afterClaims c true (some why) = q →
          exec form.1 s = .next (s.withPart q) :=
        fun q h => exec_accepted hform ho hread ha
          ((Part.zoneStep_refused (g := g) (k := k) hactive hr hasks hdef hrefused).trans h)
      refine ⟨fun x hx => hexec _ ?_, fun hx hsource => hexec _ ?_⟩
      · exact Part.opening_clamped (p := s.part.dropSup) (g := g) rfl hroom hturn (by simp) hr hx
      · refine (Part.opening_refused (p := s.part.dropSup) (o := o) (g := g) rfl hr hx).trans ?_
        exact Part.endOrder_refused (p := s.part.dropSup) (o := { o with permitted := s.part.craneX c, short := some why }) hclaim hsource
          hturn rfl

end Sys2Proof.Machine
end

section
/-! The forwarding of a LIFT_AT or LOWER_AT: what it binds, and its forwarding check (R61, R62). -/

namespace Sys2Proof.Machine

/-! ## What a binding leaves as it is -/

/-- Only hooks, slots and the plans of bays changed, and neither whether a hook is loaded nor a bay's state. -/
structure Part.Rebound (p q : Part) : Prop where
  form : q = { p with hooks := q.hooks, slots := q.slots, bays := q.bays }
  loaded : ∀ d, (q.hook d).loaded = (p.hook d).loaded
  entries : q.bays.entries = p.bays.entries
  state : ∀ b, (q.bay b).state = (p.bay b).state

theorem Part.Rebound.refl (p : Part) : p.Rebound p := ⟨rfl, fun _ => rfl, rfl, fun _ => rfl⟩

section
variable {p q : Part} (h : p.Rebound q)
include h

theorem Part.Rebound.tracker : q.tracker = p.tracker := by rw [h.form]
theorem Part.Rebound.arbiter : q.arbiter = p.arbiter := by rw [h.form]
theorem Part.Rebound.link : q.link = p.link := by rw [h.form]

theorem Part.Rebound.zone (k : Nat) : q.zone k = p.zone k := by
  rw [Part.zone, Part.zone, h.arbiter]

/-- Checks 9 and 10 do not depend on what a hook is bound for (R55). -/
theorem Part.Rebound.targetChecks (c : Fin 4) (k : OrderKind) (t : Point) : q.targetChecks c k t = p.targetChecks c k t := by
  have hcab : ∀ x y, q.inCabArea x y = p.inCabArea x y := by
    intro x y
    simp only [Part.inCabArea, Part.bayEntry, h.entries, h.state]
  have hzone : ∀ x, q.zoneOf x = p.zoneOf x := Part.zoneOf_congr fun k => by rw [h.zone]
  rw [Part.targetChecks_eq, Part.targetChecks_eq, h.loaded, hcab, hzone, h.zone]

theorem Part.Rebound.travelSpeed (c : Fin 4) (x speed : Nat) : q.travelSpeed c x speed = p.travelSpeed c x speed :=
  Part.travelSpeed_congr (fun k => by rw [h.zone]) h.tracker h.entries h.state c x speed

/-- The part with the hooks, the slots and the bays of another. -/
def Part.rebind (p q : Part) : Part := { p with hooks := q.hooks, slots := q.slots, bays := q.bays }

/-- A command enters NORMAL with a binding as without it. -/
theorem Part.Rebound.sendCommand (c : Fin 4) {o : Order} (cmd : Command) (hs : o.state = .forwarded) :
    q.sendCommand c o cmd = (((p.withCommand c o.tag o.speed cmd).setOrder c (some { o with
      lastSeq := some p.link.seq, lastDone := false, pending := none })).rebind q).verdict c o.tag .passed none o.target.x
        o.permitted := by
  have hspeed := h.travelSpeed c cmd.x o.speed
  have hlink := h.link
  have hsent : q.sendCommand c o cmd = ((q.withCommand c o.tag o.speed cmd).setOrder c (some { o with
      lastSeq := some q.link.seq, lastDone := false, pending := none })).verdict c o.tag .passed none o.target.x o.permitted :=
    if_pos (beq_iff_eq.2 hs)
  rw [hsent, Part.withCommand, hspeed, hlink]
  refine congrArg (fun u : Part => u.verdict c o.tag .passed none o.target.x o.permitted) ?_
  exact congrArg (fun u : Part => (u.onLink (Link.pushNormal (.command c) (craneStation c) cmd.verb.kind
    (commandPayload o.tag cmd (p.travelSpeed c cmd.x o.speed)))).setOrder c (some { o with
      lastSeq := some p.link.seq, lastDone := false, pending := none })) h.form

end

/-! ## The bindings (R62) -/

section
variable {p : Part} {c : Fin 4} {o : Order}

theorem Part.setHook_hook_eq (p : Part) (c d : Fin 4) (h : Hook) :
    (p.setHook c h).hook d = if d = c then h else p.hook d := by
  split
  next hd => rw [hd, Part.setHook_hook]
  next hd => exact p.setHook_hook_ne c d h hd

theorem Part.rebound_of_setHook {q : Part} (hq : p.Rebound q) {h : Hook} (hh : h.loaded = (p.hook c).loaded) :
    p.Rebound (q.setHook c h) where
  form := congrArg (fun u : Part => u.setHook c h) hq.form
  loaded d := by
    rw [Part.setHook_hook_eq]
    split
    next hd => rw [hh, hd]
    next => exact hq.loaded d
  entries := hq.entries
  state := hq.state

theorem Part.rebound_of_slots (f : SlotMap → SlotMap) : p.Rebound (p.onSlots f) := ⟨rfl, fun _ => rfl, rfl, fun _ => rfl⟩

theorem Part.rebound_of_plan (b : Fin 6) (f : Plan → Plan) : p.Rebound (p.onPlan b f) := by
  refine ⟨rfl, fun _ => rfl, rfl, fun d => ?_⟩
  by_cases hd : d = b
  · rw [hd, Part.onPlan, Part.setBay_bay]
  · rw [Part.onPlan, Part.setBay_bay_ne _ _ _ _ hd]

theorem Part.bindSource_rebound : p.Rebound (p.bindSource c o) := by
  unfold Part.bindSource
  split
  · exact Part.rebound_of_setHook (Part.rebound_of_slots _) rfl
  · split
    · exact Part.rebound_of_setHook (.refl p) rfl
    · exact .refl p
  · exact .refl p

theorem Part.bindDest_rebound : p.Rebound (p.bindDest c o) := by
  unfold Part.bindDest
  split
  · exact Part.rebound_of_setHook (Part.rebound_of_slots _) rfl
  · split
    · exact Part.rebound_of_setHook (Part.rebound_of_plan _ _) rfl
    · exact .refl p
  · exact .refl p

/-- A source slot becomes OUTGOING (R105). -/
theorem Part.bindSource_slot {i : Nat} {g : Geometry} {coil : Coil} {placed : Time} (hl : o.loc = some (.slot i))
    (hs : p.slots.slot i = some ⟨g, .occupied coil placed⟩) :
    p.bindSource c o = { p with slots := p.slots.setContents i (.outgoing coil placed c) }.setHook c
      { p.hook c with source := some ⟨.slot i, o.tag⟩ } := by
  simp only [Part.bindSource, hl, Part.onSlots, SlotMap.lift, hs]

theorem Part.bindSource_entry {e : Nat} {d : EntryData} (hl : o.loc = some (.entry e)) (hd : o.data = some d) :
    p.bindSource c o = p.setHook c { p.hook c with source := some ⟨.entry e d, o.tag⟩ } := by
  simp only [Part.bindSource, hl, hd]

/-- A destination slot becomes INCOMING with its own reservation (R109). -/
theorem Part.bindDest_reserved {i : Nat} {g : Geometry} {res : Reservation} {coil : Coil} (hl : o.loc = some (.slot i))
    (hc : (p.hook c).coil = some coil) (hs : p.slots.slot i = some ⟨g, .reserved res⟩) :
    p.bindDest c o = { p with slots := p.slots.setContents i (.incoming res c coil.weight) }.setHook c
      { p.hook c with dest := some ⟨.slot i, o.target.x, o.target.y⟩ } := by
  simp only [Part.bindDest, hl, hc, Part.onSlots, SlotMap.lower, hs]

/-- A FREE destination slot becomes INCOMING with a reservation of number 0 (R109). -/
theorem Part.bindDest_free {i : Nat} {g : Geometry} {coil : Coil} (hl : o.loc = some (.slot i))
    (hc : (p.hook c).coil = some coil) (hs : p.slots.slot i = some ⟨g, .free⟩) :
    p.bindDest c o = { p with
        slots := p.slots.setContents i (.incoming (placementReservation coil p.reservationExpiry) c coil.weight) }.setHook c
      { p.hook c with dest := some ⟨.slot i, o.target.x, o.target.y⟩ } := by
  simp only [Part.bindDest, hl, hc, Part.onSlots, SlotMap.lower, hs]

/-- A placement becomes INCOMING (R152). -/
theorem Part.bindDest_bay {b : Fin 6} {k : Nat} {coil : Coil} (hl : o.loc = some (.bayPos b.val k))
    (hc : (p.hook c).coil = some coil) :
    p.bindDest c o = (p.setBay b
        { p.bay b with plan := (p.bay b).plan.map fun pl => pl.setPlacement k (.incoming c) }).setHook c
      { p.hook c with dest := some ⟨.bayPos b k, o.target.x, o.target.y⟩ } := by
  simp only [Part.bindDest, hl, hc, bayOf_val]
  rfl

/-! ## The forwarding check (R62) -/

variable {cmd : Command} {bind : Part → Part} {why : Reason}

theorem Part.forwardAt_of_place (hd : (p.hook c).dest = none) (h : p.placeChecks c o.kind o.loc = some why) :
    p.forwardAt c o cmd bind = p.endOrder c false (some (.refused, some why)) := by
  unfold Part.forwardAt
  simp only [p.clearDest_of_none c hd, h]

theorem Part.forwardAt_of_target (hd : (p.hook c).dest = none) (hp : p.placeChecks c o.kind o.loc = none)
    (hb : p.Rebound (bind p)) (h : p.targetChecks c o.kind o.target = some why) :
    p.forwardAt c o cmd bind = (bind p).endOrder c false (some (.refused, some why)) := by
  unfold Part.forwardAt
  simp only [p.clearDest_of_none c hd, hp, hb.targetChecks, h]

theorem Part.forwardAt_of_pass (hd : (p.hook c).dest = none) (hp : p.placeChecks c o.kind o.loc = none)
    (hb : p.Rebound (bind p)) (h : p.targetChecks c o.kind o.target = none) :
    p.forwardAt c o cmd bind = (bind p).sendCommand c o cmd := by
  unfold Part.forwardAt
  simp only [p.clearDest_of_none c hd, hp, hb.targetChecks, h]

/-- The order as its command leaves the record. -/
def Order.unpended (o : Order) : Order := { o with pending := none }

/-- A LIFT_AT or LOWER_AT that passes its forwarding check (R62). -/
theorem Part.forwarded_passes (hd : (p.hook c).dest = none) (hp : p.placeChecks c o.kind o.loc = none)
    (ht : p.targetChecks c o.kind o.target = none) (hs : o.state = .forwarded)
    (hb : (p.setOrder c (some o.unpended)).Rebound (bind (p.setOrder c (some o.unpended)))) :
    (p.setOrder c (some o.unpended)).forwardAt c o.unpended cmd bind =
      (((p.withCommand c o.tag o.speed cmd).setOrder c (some { o with
        lastSeq := some p.link.seq, lastDone := false, pending := none })).rebind
          (bind (p.setOrder c (some o.unpended)))).verdict c o.tag .passed none o.target.x o.permitted := by
  refine (Part.forwardAt_of_pass (p := p.setOrder c (some o.unpended)) hd hp hb ht).trans ?_
  refine (hb.sendCommand c (o := o.unpended) cmd hs).trans ?_
  rw [Part.withCommand_setOrder, Part.setOrder_setOrder]
  rfl

theorem Part.forwardCommand_lift (ho : p.activeOrder c = some o) (hv : cmd.verb = .liftAt) :
    p.forwardCommand c cmd =
      (p.setOrder c (some o.unpended)).forwardAt c o.unpended cmd fun q => q.bindSource c o.unpended := by
  rw [Part.forwardCommand, ho]
  simp only [hv]
  rfl

theorem Part.forwardCommand_lower (ho : p.activeOrder c = some o) (hv : cmd.verb = .lowerAt) :
    p.forwardCommand c cmd =
      (p.setOrder c (some o.unpended)).forwardAt c o.unpended cmd fun q => q.bindDest c o.unpended := by
  rw [Part.forwardCommand, ho]
  simp only [hv]
  rfl

/-- A LIFT_AT that passes its forwarding check enters NORMAL, and its source is bound (R62, R105). -/
theorem Part.forwardCommand_lifts (ho : p.activeOrder c = some o) (hv : cmd.verb = .liftAt) (hs : o.state = .forwarded)
    (hd : (p.hook c).dest = none) (hp : p.placeChecks c o.kind o.loc = none) (ht : p.targetChecks c o.kind o.target = none) :
    p.forwardCommand c cmd = (((p.withCommand c o.tag o.speed cmd).setOrder c (some { o with
      lastSeq := some p.link.seq, lastDone := false, pending := none })).rebind
        ((p.setOrder c (some o.unpended)).bindSource c o.unpended)).verdict c o.tag .passed none o.target.x o.permitted :=
  (Part.forwardCommand_lift ho hv).trans (Part.forwarded_passes hd hp ht hs Part.bindSource_rebound)

/-- A LOWER_AT that passes its forwarding check enters NORMAL, and its destination is bound (R62, R109, R152). -/
theorem Part.forwardCommand_lowers (ho : p.activeOrder c = some o) (hv : cmd.verb = .lowerAt) (hs : o.state = .forwarded)
    (hd : (p.hook c).dest = none) (hp : p.placeChecks c o.kind o.loc = none) (ht : p.targetChecks c o.kind o.target = none) :
    p.forwardCommand c cmd = (((p.withCommand c o.tag o.speed cmd).setOrder c (some { o with
      lastSeq := some p.link.seq, lastDone := false, pending := none })).rebind
        ((p.setOrder c (some o.unpended)).bindDest c o.unpended)).verdict c o.tag .passed none o.target.x o.permitted :=
  (Part.forwardCommand_lower ho hv).trans (Part.forwarded_passes hd hp ht hs Part.bindDest_rebound)

theorem Part.orderChecks_eq_none_iff {k : OrderKind} {loc : Option Location} {t : Point} :
    p.orderChecks c k loc t = none ↔ p.placeChecks c k loc = none ∧ p.targetChecks c k t = none := by
  rw [Part.orderChecks]
  cases p.placeChecks c k loc <;> simp

end

end Sys2Proof.Machine
end

section
/-! O21 and O22. A PICK or PLACE that its crane may take whole at once. -/

namespace Sys2Proof.Machine

/-- A command that is prepared while NORMAL has room is forwarded at once (R61). -/
theorem Part.prepare_room {p : Part} {c : Fin 4} {cmd : Command} (hn : p.link.normal.length < 16) (ht : c ∉ p.gate.pendingTurn) :
    p.prepare c cmd = p.forwardCommand c cmd := by
  rw [Part.prepare, (Link.normalRoom_iff _).2 hn, if_pos rfl, Part.dropTurn_of_absent ht]

/-- The order of an order frame that is granted whole, as it stands when its command is forwarded. -/
def Part.grantedOrder (p : Part) (c : Fin 4) (r : OrderRequest) (t : Point) : Order :=
  { p.newOrder c r t with permitted := t.x, state := .forwarded }

section
variable {s : State} {c : Fin 4} {r : OrderRequest} {t : Point} {cmd : Command}

/-- The part once an order that is granted whole stands in its record. -/
def State.grantedPart (s : State) (c : Fin 4) (r : OrderRequest) (t : Point) : Part :=
  s.part.dropSup.setOrder c (some (s.part.grantedOrder c r t))

theorem State.grantedPart_prepare (hg : s.Granted c r t) : (s.grantedPart c r t).prepare c cmd = (s.grantedPart c r t).forwardCommand c cmd := by
  obtain ⟨⟨_, _, _, _, _, _, _, _, hroom, hturn⟩, _⟩ := hg
  exact Part.prepare_room (p := s.grantedPart c r t) hroom hturn

theorem State.grantedPart_active : (s.grantedPart c r t).activeOrder c = some (s.part.grantedOrder c r t) :=
  Part.activeOrder_eq (Part.setOrder_order ..) rfl

/-- What a granted order leaves before its binding. -/
theorem State.grantedPart_sent :
    ((s.grantedPart c r t).withCommand c (s.part.grantedOrder c r t).tag (s.part.grantedOrder c r t).speed cmd).setOrder c
      (some { s.part.grantedOrder c r t with
        lastSeq := some (s.grantedPart c r t).link.seq, lastDone := false, pending := none }) =
    (s.part.dropSup.withCommand c r.tag r.speed cmd).setOrder c (some (s.part.forwardedOrder c r t)) := by
  rw [State.grantedPart, Part.withCommand_setOrder, Part.setOrder_setOrder]
  rfl

/-- A PICK granted whole is forwarded, and its source is bound (R62, R105). -/
theorem exec_pick_granted {f : Frame} {q : Part} (ho : s.OrderFor .pick c f) (hread : readOrder .pick f.payload = some r)
    (hg : s.Granted c r t) (hdest : (s.part.hook c).dest = none)
    (hbind : ((s.grantedPart c r t).setOrder c (some (s.part.grantedOrder c r t).unpended)).bindSource c
      (s.part.grantedOrder c r t).unpended = q) :
    exec .pick s = .next (s.withPart ((((s.part.dropSup.withCommand c r.tag r.speed
      ⟨.liftAt, t.x, t.y, t.z, (s.part.entry c).zSafe⟩).setOrder c (some (s.part.forwardedOrder c r t))).rebind q).verdict
        c r.tag .passed none t.x t.x)) := by
  refine exec_granted (form := (.pick, .pick, .pick)) (by decide) ho hread hg ((State.grantedPart_prepare hg).trans ?_)
  have hkind : r.kind = .pick := readOrder_kind hread
  have hcmd : s.part.finalCommand c (s.part.newOrder c r t) = ⟨.liftAt, t.x, t.y, t.z, (s.part.entry c).zSafe⟩ := by
    simp only [Part.finalCommand, Part.newOrder, hkind]
  obtain ⟨⟨_, _, _, _, _, _, _, hchecks, _, _⟩, _⟩ := hg
  obtain ⟨hplace, htarget⟩ := Part.orderChecks_eq_none_iff.1 hchecks
  have hforward := Part.forwardCommand_lifts (p := s.grantedPart c r t) (cmd := ⟨.liftAt, t.x, t.y, t.z, (s.part.entry c).zSafe⟩)
    State.grantedPart_active rfl rfl hdest hplace htarget
  rw [State.grantedPart_sent, hbind] at hforward
  rw [hcmd]
  exact hforward

/-- A PLACE granted whole is forwarded, and its destination is bound (R62, R109, R152). -/
theorem exec_place_granted {f : Frame} {q : Part} (ho : s.OrderFor .place c f) (hread : readOrder .place f.payload = some r)
    (hg : s.Granted c r t) (hdest : (s.part.hook c).dest = none)
    (hbind : ((s.grantedPart c r t).setOrder c (some (s.part.grantedOrder c r t).unpended)).bindDest c
      (s.part.grantedOrder c r t).unpended = q) :
    exec .place s = .next (s.withPart ((((s.part.dropSup.withCommand c r.tag r.speed
      ⟨.lowerAt, t.x, t.y, t.z, (s.part.entry c).zSafe⟩).setOrder c (some (s.part.forwardedOrder c r t))).rebind q).verdict
        c r.tag .passed none t.x t.x)) := by
  refine exec_granted (form := (.place, .place, .place)) (by decide) ho hread hg ((State.grantedPart_prepare hg).trans ?_)
  have hkind : r.kind = .place := readOrder_kind hread
  have hcmd : s.part.finalCommand c (s.part.newOrder c r t) = ⟨.lowerAt, t.x, t.y, t.z, (s.part.entry c).zSafe⟩ := by
    simp only [Part.finalCommand, Part.newOrder, hkind]
  obtain ⟨⟨_, _, _, _, _, _, _, hchecks, _, _⟩, _⟩ := hg
  obtain ⟨hplace, htarget⟩ := Part.orderChecks_eq_none_iff.1 hchecks
  have hforward := Part.forwardCommand_lowers (p := s.grantedPart c r t) (cmd := ⟨.lowerAt, t.x, t.y, t.z, (s.part.entry c).zSafe⟩)
    State.grantedPart_active rfl rfl hdest hplace htarget
  rw [State.grantedPart_sent, hbind] at hforward
  rw [hcmd]
  exact hforward

end

/-- Settles O21. -/
theorem pickOrderIsForwarded : Obligations.PickOrderIsForwarded := by
  unfold Obligations.PickOrderIsForwarded
  intro s c f r t ho hread hg hdest o p
  refine ⟨fun i g coil placed hloc hslot => ?_, fun e d hloc hdata => ?_⟩
  · exact exec_pick_granted ho hread hg hdest (Part.bindSource_slot (g := g) (placed := placed) hloc hslot)
  · exact exec_pick_granted ho hread hg hdest (Part.bindSource_entry hloc hdata)

/-- Settles O22. -/
theorem placeOrderIsForwarded : Obligations.PlaceOrderIsForwarded := by
  unfold Obligations.PlaceOrderIsForwarded
  intro s c f r t coil ho hread hg hdest hcoil o p
  refine ⟨fun i g res hloc hslot => ?_, ?_, fun b k hloc => ?_⟩
  · exact exec_place_granted ho hread hg hdest (Part.bindDest_reserved (g := g) hloc hcoil hslot)
  · intro i g hloc hslot res
    exact exec_place_granted ho hread hg hdest (Part.bindDest_free (g := g) hloc hcoil hslot)
  · exact exec_place_granted ho hread hg hdest (Part.bindDest_bay hloc hcoil)

end Sys2Proof.Machine
end

section
/-! O13. The pending command that enters NORMAL, or whose forwarding check fails (R61, R62, R64). -/

namespace Sys2Proof.Machine

/-! ## What is bound is cleared again (R107, R111, R152) -/

section
variable {p : Part} {c : Fin 4} {i : Nat} {g : Geometry}

/-- A source slot that is OUTGOING for the crane becomes OCCUPIED again (R107). -/
theorem Part.clearSource_slot {tag : Nat} {coil : Coil} {placed : Time}
    (hs : (p.hook c).source = some ⟨.slot i, tag⟩) (hm : p.slots.slot i = some ⟨g, .outgoing coil placed c⟩) :
    p.clearSource c = { p with slots := p.slots.setContents i (.occupied coil placed) }.setHook c
      { p.hook c with source := none } := by
  simp only [Part.clearSource, hs, Part.onSlots, SlotMap.revertSource, Part.setHook_slots, hm, if_true]
  rfl

theorem Part.clearSource_entry {e tag : Nat} {d : EntryData} (hs : (p.hook c).source = some ⟨.entry e d, tag⟩) :
    p.clearSource c = p.setHook c { p.hook c with source := none } := by
  simp only [Part.clearSource, hs]

/-- A destination slot that is INCOMING for the crane becomes RESERVED again (R111). -/
theorem Part.clearDest_slot {x y w : Nat} {r : Reservation} (hd : (p.hook c).dest = some ⟨.slot i, x, y⟩)
    (hm : p.slots.slot i = some ⟨g, .incoming r c w⟩) (hl : r.lapsed = false) :
    p.clearDest c = { p with slots := p.slots.setContents i (.reserved r) }.setHook c { p.hook c with dest := none } := by
  simp only [Part.clearDest, hd, Part.revertSlotDest, SlotMap.revertDest, Part.setHook_slots, hm, if_true, hl, Bool.false_eq_true,
    if_false]
  rfl

/-- A placement that is INCOMING for the crane becomes PLANNED again (R152). -/
theorem Part.clearDest_bay {b : Fin 6} {k x y : Nat} (hd : (p.hook c).dest = some ⟨.bayPos b k, x, y⟩)
    (hm : p.placementIncoming b k c = true) :
    p.clearDest c = (p.onPlan b fun pl => pl.setPlacement k .planned).setHook c { p.hook c with dest := none } := by
  have hm' : (p.setHook c { p.hook c with dest := none }).placementIncoming b k c = true := hm
  simp only [Part.clearDest, hd, Part.revertPlacement, hm', if_true]
  rfl

/-- The part once an active order is over and its commands have left NORMAL (R64). -/
def Part.over (p : Part) (c : Fin 4) (o : Order) : Part :=
  { p with
    link := p.link.withoutCommands c
    gate := { p.gate with
      pendingTurn := p.gate.pendingTurn.filter fun d => d != c
      orders := p.gate.orders.set c (some { o with state := .ended, pending := none }) } }

theorem Part.over_setOrder (p : Part) (c : Fin 4) (o : Order) (o' : Option Order) : (p.setOrder c o').over c o = p.over c o :=
  congrArg (fun os => { p with
    link := p.link.withoutCommands c
    gate := { p.gate with pendingTurn := p.gate.pendingTurn.filter fun d => d != c, orders := os } }) (Vector.set_set ..)

variable {o : Order} {why : Reason}

/-- The end of an order whose hook keeps what it is bound for (R64). -/
theorem Part.endOrder_kept (ho : p.activeOrder c = some o) (hc : p.claim c = none)
    (hs : (p.hook c).state ≠ .empty ∨ (p.hook c).source = none) (hd : (p.hook c).dest = none) :
    p.endOrder c false (some (.refused, some why)) =
      (p.over c o).verdict c o.tag .refused (some why) o.target.x o.permitted := by
  have hsource : (if (p.hook c).state == .empty then (p.over c o).clearSource c else p.over c o) = p.over c o := by
    split
    next h => exact (p.over c o).clearSource_of_none c (hs.resolve_left fun hne => hne (beq_iff_eq.1 h))
    · rfl
  have hdest : (if o.setDest && !false then (p.over c o).clearDest c else p.over c o) = p.over c o := by
    split
    · exact (p.over c o).clearDest_of_none c hd
    · rfl
  have hend := Part.endOrder_of_active p c o .refused (some why) ho hc
  simp only [← Part.over.eq_def, hsource, hdest] at hend
  exact hend

/-- The end of an order whose hook is EMPTY and was bound to a source (R64, R107). -/
theorem Part.endOrder_unsourced (ho : p.activeOrder c = some o) (hc : p.claim c = none) (hs : (p.hook c).state = .empty)
    (hk : o.kind = .pick) :
    p.endOrder c false (some (.refused, some why)) =
      ((p.over c o).clearSource c).verdict c o.tag .refused (some why) o.target.x o.permitted := by
  have hempty : ((p.hook c).state == .empty) = true := beq_iff_eq.2 hs
  have hdest : (o.setDest && !false) = false := by
    rw [Order.setDest, hk]
    rfl
  have hend := Part.endOrder_of_active p c o .refused (some why) ho hc
  simp only [← Part.over.eq_def, hempty, hdest, if_true, Bool.false_eq_true, if_false] at hend
  exact hend

/-- The end of a PLACE that bound its destination (R64, R111, R152). -/
theorem Part.endOrder_undestined (ho : p.activeOrder c = some o) (hc : p.claim c = none) (hs : (p.hook c).state ≠ .empty)
    (hk : o.setDest = true) :
    p.endOrder c false (some (.refused, some why)) =
      ((p.over c o).clearDest c).verdict c o.tag .refused (some why) o.target.x o.permitted := by
  have hempty : ((p.hook c).state == .empty) = false := beq_eq_false_iff_ne.2 hs
  have hend := Part.endOrder_of_active p c o .refused (some why) ho hc
  simp only [← Part.over.eq_def, hempty, hk, Bool.not_false, Bool.and_self, if_true, Bool.false_eq_true, if_false] at hend
  exact hend

end

/-! ## A forwarding check that fails (R62, R64) -/

section
variable {p : Part} {c : Fin 4} {o : Order} {cmd : Command} {why : Reason}

theorem Part.forwardCommand_at (ho : p.activeOrder c = some o) (hv : cmd.verb ≠ .moveTo) :
    ∃ bind, p.forwardCommand c cmd = (p.setOrder c (some o.unpended)).forwardAt c o.unpended cmd bind := by
  cases h : cmd.verb with
  | moveTo => exact absurd h hv
  | liftAt => exact ⟨_, Part.forwardCommand_lift ho h⟩
  | lowerAt => exact ⟨_, Part.forwardCommand_lower ho h⟩

theorem Part.unpended_active (ho : p.activeOrder c = some o) :
    (p.setOrder c (some o.unpended)).activeOrder c = some o.unpended :=
  Part.activeOrder_eq (Part.setOrder_order ..) (Part.order_of_active ho).2

/-- Check 7 or 8 fails: nothing was bound (R62). -/
theorem Part.forwardCommand_place_refused (ho : p.activeOrder c = some o) (hv : cmd.verb ≠ .moveTo) (hd : (p.hook c).dest = none)
    (hc : p.claim c = none) (hp : p.placeChecks c o.kind o.loc = some why)
    (hs : (p.hook c).state ≠ .empty ∨ (p.hook c).source = none) :
    p.forwardCommand c cmd = (p.over c o).verdict c o.tag .refused (some why) o.target.x o.permitted := by
  obtain ⟨bind, h⟩ := Part.forwardCommand_at ho hv
  rw [h, Part.forwardAt_of_place (p := p.setOrder c (some o.unpended)) (o := o.unpended) hd hp,
    Part.endOrder_kept (p := p.setOrder c (some o.unpended)) (Part.unpended_active ho) hc hs hd, Part.over_setOrder]
  rfl

theorem Part.Rebound.activeOrder {q : Part} (h : p.Rebound q) : q.activeOrder c = p.activeOrder c := by
  rw [h.form]
  rfl

theorem Part.Rebound.claim {q : Part} (h : p.Rebound q) : q.claim c = p.claim c := by
  rw [Part.claim, h.arbiter, Part.claim]

/-- Check 9 or 10 of a PICK fails: its source is cleared again (R62, R107). -/
theorem Part.forwardCommand_lift_refused {q : Part} (ho : p.activeOrder c = some o) (hv : cmd.verb = .liftAt)
    (hd : (p.hook c).dest = none) (hc : p.claim c = none) (hk : o.kind = .pick) (hp : p.placeChecks c o.kind o.loc = none)
    (ht : p.targetChecks c o.kind o.target = some why) (hq : (p.setOrder c (some o.unpended)).bindSource c o.unpended = q)
    (hs : (q.hook c).state = .empty) :
    p.forwardCommand c cmd = ((q.over c o).clearSource c).verdict c o.tag .refused (some why) o.target.x o.permitted := by
  have hbound : (p.setOrder c (some o.unpended)).Rebound q := hq ▸ Part.bindSource_rebound
  rw [Part.forwardCommand_lift ho hv, Part.forwardAt_of_target (p := p.setOrder c (some o.unpended)) (o := o.unpended) hd hp
    Part.bindSource_rebound ht, hq]
  exact Part.endOrder_unsourced (o := o.unpended) (hbound.activeOrder.trans (Part.unpended_active ho)) (hbound.claim.trans hc) hs hk

/-- Check 9 or 10 of a PLACE fails: its destination is cleared again (R62, R111, R152). -/
theorem Part.forwardCommand_lower_refused {q : Part} (ho : p.activeOrder c = some o) (hv : cmd.verb = .lowerAt)
    (hd : (p.hook c).dest = none) (hc : p.claim c = none) (hk : o.kind = .place) (hf : o.state = .forwarded)
    (hp : p.placeChecks c o.kind o.loc = none)
    (ht : p.targetChecks c o.kind o.target = some why) (hq : (p.setOrder c (some o.unpended)).bindDest c o.unpended = q)
    (hs : (q.hook c).state ≠ .empty) :
    p.forwardCommand c cmd = ((q.over c o).clearDest c).verdict c o.tag .refused (some why) o.target.x o.permitted := by
  have hbound : (p.setOrder c (some o.unpended)).Rebound q := hq ▸ Part.bindDest_rebound
  have hset : o.unpended.setDest = true := by
    simp only [Order.setDest, Order.unpended, hk, hf]
    rfl
  rw [Part.forwardCommand_lower ho hv, Part.forwardAt_of_target (p := p.setOrder c (some o.unpended)) (o := o.unpended) hd hp
    Part.bindDest_rebound ht, hq]
  exact Part.endOrder_undestined (o := o.unpended) (hbound.activeOrder.trans (Part.unpended_active ho)) (hbound.claim.trans hc) hs hset

/-- What check 7 says of the hook of a PICK and of a PLACE (R55). -/
theorem Part.hookFits_of_placeChecks {k : OrderKind} {loc : Option Location} (h : p.placeChecks c k loc = none) :
    (k = .pick → (p.hook c).state = .empty) ∧ (k = .place → (p.hook c).state = .weighed) := by
  refine (hookFits_iff k _).1 ?_
  by_contra hfit
  rw [Part.placeChecks_unfit (Bool.eq_false_iff.2 hfit)] at h
  exact absurd h (by simp)

/-- Check 8 of a PLACE at a bay position says that there is a placement (R55, R152). -/
theorem Part.placement_of_check {k : OrderKind} {loc : Option Location} {b : Fin 6} {j : Nat} {coil : Coil}
    (h : p.placeChecks c k loc = none) (hk : k = .place) (hl : loc = some (.bayPos b.val j)) (hc : (p.hook c).coil = some coil) :
    ((p.bay b).plan.bind fun pl => pl.placement j).isSome = true := by
  have hfits : hookFits k (p.hook c) = true := (hookFits_iff k _).2 (Part.hookFits_of_placeChecks h)
  rw [Part.placeChecks_fit hfits] at h
  subst hk hl
  simp only [Part.ownerCheck, bayOf_val, hc, Part.placementCheck] at h
  cases hpl : (p.bay b).plan with
  | none =>
    rw [hpl] at h
    exact absurd h (by simp)
  | some pl =>
    rw [hpl] at h
    cases hq : pl.placement j with
    | none =>
      simp only [hq] at h
      exact absurd h (by simp)
    | some q => rw [Option.bind_some, hq, Option.isSome_some]

end

/-! ## What is left of a binding that is cleared again -/

section
variable {p : Part} {c : Fin 4} {o : Order} {i : Nat} {g : Geometry}

theorem Part.setHook_self {h : Hook} (hh : p.hook c = h) : p.setHook c h = p := by
  subst hh
  exact congrArg (fun hs => { p with hooks := hs }) (Vector.set_getElem_self c.isLt)

theorem Part.over_setHook (p : Part) (c : Fin 4) (o : Order) (h : Hook) : (p.setHook c h).over c o = (p.over c o).setHook c h := rfl

theorem Part.over_hook (p : Part) (c : Fin 4) (o : Order) : (p.over c o).hook c = p.hook c := rfl

/-- The part with its slot map replaced. -/
def Part.withSlots (p : Part) (m : SlotMap) : Part := { p with slots := m }

theorem Part.over_withSlots (p : Part) (c : Fin 4) (o : Order) (m : SlotMap) :
    (p.withSlots m).over c o = (p.over c o).withSlots m := rfl

/-- A slot that was OCCUPIED is so again, and the hook has no source (R107). -/
theorem Part.unlifted_slot {tag : Nat} {coil : Coil} {placed : Time} (hm : p.slots.slot i = some ⟨g, .occupied coil placed⟩) :
    (((p.withSlots (p.slots.setContents i (.outgoing coil placed c))).setHook c
      { p.hook c with source := some ⟨.slot i, tag⟩ }).over c o).clearSource c =
    ((p.over c o).withSlots (p.slots.setContents i (.occupied coil placed))).setHook c { p.hook c with source := none } := by
  rw [Part.over_setHook, Part.over_withSlots]
  have hslot : (p.slots.setContents i (.outgoing coil placed c)).slot i = some ⟨g, .outgoing coil placed c⟩ := by
    rw [SlotMap.slot_setContents, if_pos rfl, hm]
    rfl
  have hhook := ((p.over c o).withSlots (p.slots.setContents i (.outgoing coil placed c))).setHook_hook c
    { p.hook c with source := some ⟨.slot i, tag⟩ }
  refine (Part.clearSource_slot (by rw [hhook]) hslot).trans ?_
  rw [hhook]
  have hset := SlotMap.setContents_setContents p.slots i (.outgoing coil placed c) (.occupied coil placed)
  exact (congrArg (fun m => (((p.over c o).withSlots m).setHook c { p.hook c with source := some ⟨.slot i, tag⟩ }).setHook c
    { p.hook c with source := none }) hset).trans (Part.setHook_setHook _ c _ _)

theorem Part.unlifted_entry {e tag : Nat} {d : EntryData} :
    ((p.setHook c { p.hook c with source := some ⟨.entry e d, tag⟩ }).over c o).clearSource c =
    (p.over c o).setHook c { p.hook c with source := none } := by
  rw [Part.over_setHook]
  have hhook := (p.over c o).setHook_hook c { p.hook c with source := some ⟨.entry e d, tag⟩ }
  refine (Part.clearSource_entry (by rw [hhook])).trans ?_
  rw [hhook, Part.setHook_setHook]

/-- A slot that was bound with a reservation in force is RESERVED with it (R111). -/
theorem Part.unlowered_slot {x y w : Nat} {r : Reservation} (hd : (p.hook c).dest = none)
    (hm : ∃ contents, p.slots.slot i = some ⟨g, contents⟩) (hl : r.lapsed = false) :
    (((p.withSlots (p.slots.setContents i (.incoming r c w))).setHook c
      { p.hook c with dest := some ⟨.slot i, x, y⟩ }).over c o).clearDest c =
    (p.over c o).withSlots (p.slots.setContents i (.reserved r)) := by
  obtain ⟨contents, hm⟩ := hm
  rw [Part.over_setHook, Part.over_withSlots]
  have hslot : (p.slots.setContents i (.incoming r c w)).slot i = some ⟨g, .incoming r c w⟩ := by
    rw [SlotMap.slot_setContents, if_pos rfl, hm]
    rfl
  have hhook := ((p.over c o).withSlots (p.slots.setContents i (.incoming r c w))).setHook_hook c
    { p.hook c with dest := some ⟨.slot i, x, y⟩ }
  have hback : { { p.hook c with dest := some ⟨.slot i, x, y⟩ } with dest := none } = p.hook c := by rw [← hd]
  refine (Part.clearDest_slot (by rw [hhook]) hslot hl).trans ?_
  rw [hhook, hback]
  have hset := SlotMap.setContents_setContents p.slots i (.incoming r c w) (.reserved r)
  refine (congrArg (fun m => (((p.over c o).withSlots m).setHook c { p.hook c with dest := some ⟨.slot i, x, y⟩ }).setHook c
    (p.hook c)) hset).trans ?_
  rw [Part.setHook_setHook]
  exact Part.setHook_self rfl

theorem Plan.setPlacement_placement (pl : Plan) (k : Nat) (st : PlacementState) :
    (pl.setPlacement k st).placement k = (pl.placement k).map fun q => { q with state := st } := by
  rw [Plan.setPlacement]
  cases h : pl.placement k with
  | none => exact h
  | some q => exact List.getElem?_set_self (List.getElem?_eq_some_iff.1 h).1

theorem Plan.setPlacement_setPlacement (pl : Plan) (k : Nat) (st st' : PlacementState) :
    (pl.setPlacement k st).setPlacement k st' = pl.setPlacement k st' := by
  have hplacement := pl.setPlacement_placement k st
  cases h : pl.placement k with
  | none =>
    have hsame : ∀ st, pl.setPlacement k st = pl := fun st => by rw [Plan.setPlacement, h]
    rw [hsame, hsame]
  | some q =>
    rw [h, Option.map_some] at hplacement
    have hset : ∀ st, pl.setPlacement k st = { pl with placements := pl.placements.set k { q with state := st } } := fun st => by
      rw [Plan.setPlacement, h]
    rw [Plan.setPlacement, hplacement, hset, hset]
    exact congrArg (fun ps => { pl with placements := ps }) (List.set_set ..)

theorem Part.onPlan_onPlan (p : Part) (b : Fin 6) (f f' : Plan → Plan) : (p.onPlan b f).onPlan b f' = p.onPlan b fun pl => f' (f pl) := by
  have hbay := p.setBay_bay b { p.bay b with plan := (p.bay b).plan.map f }
  rw [Part.onPlan, Part.onPlan, hbay]
  simp only [Option.map_map]
  exact congrArg (fun rs => { p with bays := { p.bays with records := rs } }) (Vector.set_set ..)

/-- A placement that was bound is PLANNED again (R152). -/
theorem Part.unlowered_bay {b : Fin 6} {k x y : Nat} (hd : (p.hook c).dest = none)
    (hm : ((p.bay b).plan.bind fun pl => pl.placement k).isSome = true) :
    (((p.onPlan b fun pl => pl.setPlacement k (.incoming c)).setHook c
      { p.hook c with dest := some ⟨.bayPos b k, x, y⟩ }).over c o).clearDest c =
    (p.over c o).onPlan b fun pl => pl.setPlacement k .planned := by
  obtain ⟨q, hq⟩ := Option.isSome_iff_exists.1 hm
  obtain ⟨pl, hpl, hplacement⟩ := Option.bind_eq_some_iff.1 hq
  have hincoming : (p.onPlan b fun pl => pl.setPlacement k (.incoming c)).placementIncoming b k c = true := by
    rw [Part.placementIncoming, Part.onPlan, Part.setBay_bay, hpl]
    simp only [Option.map_some, Option.bind_some, Plan.setPlacement_placement, hplacement, Option.any_some, beq_self_eq_true]
  rw [Part.over_setHook]
  have hhook := ((p.onPlan b fun pl => pl.setPlacement k (.incoming c)).over c o).setHook_hook c
    { p.hook c with dest := some ⟨.bayPos b k, x, y⟩ }
  have hback : { { p.hook c with dest := some ⟨.bayPos b k, x, y⟩ } with dest := none } = p.hook c := by rw [← hd]
  refine (Part.clearDest_bay (p := ((p.onPlan b fun pl => pl.setPlacement k (.incoming c)).over c o).setHook c
    { p.hook c with dest := some ⟨.bayPos b k, x, y⟩ }) (x := x) (y := y) (by rw [hhook]) hincoming).trans ?_
  rw [hhook, hback]
  have htwice : (p.onPlan b fun pl => pl.setPlacement k (.incoming c)).onPlan b (fun pl => pl.setPlacement k .planned) =
      p.onPlan b fun pl => pl.setPlacement k .planned := by
    rw [Part.onPlan_onPlan]
    simp only [Plan.setPlacement_setPlacement]
  refine (congrArg (fun u : Part => ((u.setHook c { p.hook c with dest := some ⟨.bayPos b k, x, y⟩ }).setHook c (p.hook c)).over c o)
    htwice).trans ?_
  rw [Part.setHook_setHook]
  exact Part.setHook_self (p := (p.over c o).onPlan b fun pl => pl.setPlacement k .planned) rfl

end

/-- Settles O13. -/
theorem pendingCommandEntersNormal : Obligations.PendingCommandEntersNormal := by
  unfold Obligations.PendingCommandEntersNormal
  intro s c rest o cmd hr hq hn hturn ho hcmd o' p passed check
  obtain ⟨u, hu⟩ : ∃ u : Part, u = { s.part with gate := { s.part.gate with pendingTurn := rest } } := ⟨_, rfl⟩
  have hactive : u.activeOrder c = some o := by rw [hu]; exact ho
  have hexec : ∀ q : Part, u.forwardCommand c cmd = q → exec .pendingCommandQueued s = .next (s.withPart q) := by
    intro q h
    rw [exec_pendingCommandQueued]
    refine State.act_eq hr ?_
    rw [queuePending_of_quiet hq hn hturn ho hcmd, ← hu]
    exact h
  have hsent : (u.withCommand c o.tag o.speed cmd).setOrder c (some { o with
      lastSeq := some u.link.seq, lastDone := false, pending := none }) = p := by
    rw [hu]
    rfl
  refine ⟨fun hv => hexec _ ?_, fun hv hs hd hcheck => ?_, fun coil hv hs hd hcoil hcheck => ?_, fun why hv hd hclaim => ?_⟩
  · refine (Part.forwardCommand_move hactive hv).trans ?_
    simp only []
    rw [hsent]
    exact if_congr beq_iff_eq rfl rfl
  · obtain ⟨hplace, htarget⟩ := Part.orderChecks_eq_none_iff.1 hcheck
    have hlifts : ∀ q, (u.setOrder c (some o.unpended)).bindSource c o.unpended = q →
        exec .pendingCommandQueued s = .next (passed (p.rebind q)) := by
      intro q hbind
      refine hexec _ ?_
      subst hu
      rw [Part.forwardCommand_lifts hactive hv hs hd hplace htarget, hsent, hbind]
    subst hu
    exact ⟨fun i g coil placed hloc hslot => hlifts _ (Part.bindSource_slot (g := g) (placed := placed) hloc hslot),
      fun e d hloc hdata => hlifts _ (Part.bindSource_entry hloc hdata)⟩
  · obtain ⟨hplace, htarget⟩ := Part.orderChecks_eq_none_iff.1 hcheck
    have hlowers : ∀ q, (u.setOrder c (some o.unpended)).bindDest c o.unpended = q →
        exec .pendingCommandQueued s = .next (passed (p.rebind q)) := by
      intro q hbind
      refine hexec _ ?_
      subst hu
      rw [Part.forwardCommand_lowers hactive hv hs hd hplace htarget, hsent, hbind]
    subst hu
    refine ⟨?_, fun b k hloc => hlowers _ (Part.bindDest_bay hloc hcoil)⟩
    intro i g hloc incoming
    exact ⟨fun r hslot => hlowers _ (Part.bindDest_reserved (g := g) hloc hcoil hslot),
      fun hslot => hlowers _ (Part.bindDest_free (g := g) hloc hcoil hslot)⟩
  · intro refused unbound
    have hrefused : ∀ w : Part, u.forwardCommand c cmd = w.verdict c o.tag .refused (some why) o.target.x o.permitted →
        exec .pendingCommandQueued s = .next (s.withPart (w.verdict c o.tag .refused (some why) o.target.x o.permitted)) :=
      fun w h => hexec _ h
    refine ⟨fun hplace hs => ?_, fun hplace htarget hs => ⟨fun hlift hkind => ?_, fun coil hlower hkind hcoil => ?_⟩⟩
    · subst hu
      exact hrefused _ (Part.forwardCommand_place_refused hactive hv hd hclaim hplace hs)
    · have hempty : (s.part.hook c).state = .empty := (Part.hookFits_of_placeChecks hplace).1 hkind
      have hback : ∀ q w : Part, (u.setOrder c (some o.unpended)).bindSource c o.unpended = q → (q.hook c).state = .empty →
          (q.over c o).clearSource c = w →
          exec .pendingCommandQueued s = .next (s.withPart (w.verdict c o.tag .refused (some why) o.target.x o.permitted)) := by
        intro q w hbind hstate hclear
        refine hrefused w ?_
        subst hu
        rw [Part.forwardCommand_lift_refused hactive hlift hd hclaim hkind hplace htarget hbind hstate, hclear]
      have hempty' : ∀ v : Part, ∀ src, ((v.setHook c { u.hook c with source := src }).hook c).state = .empty := by
        intro v src
        rw [Part.setHook_hook, hu]
        exact hempty
      refine ⟨fun i g coil placed hloc hslot => ?_, fun e d hloc hdata => ?_⟩
      · have hslot' : u.slots.slot i = some ⟨g, .occupied coil placed⟩ := by rw [hu]; exact hslot
        have hclear := Part.unlifted_slot (p := u.setOrder c (some o.unpended)) (c := c) (o := o) (tag := o.tag) hslot'
        rw [Part.over_setOrder] at hclear
        have h := hback _ _ (Part.bindSource_slot (g := g) (placed := placed) hloc hslot') (hempty' _ _) hclear
        subst hu
        exact h
      · have hclear := Part.unlifted_entry (p := u.setOrder c (some o.unpended)) (c := c) (o := o) (e := e) (tag := o.tag) (d := d)
        rw [Part.over_setOrder] at hclear
        have h := hback _ _ (Part.bindSource_entry hloc hdata) (hempty' _ _) hclear
        subst hu
        exact h
    · have hweighed : (s.part.hook c).state ≠ .empty := by
        rw [(Part.hookFits_of_placeChecks hplace).2 hkind]
        decide
      have hback : ∀ q w : Part, (u.setOrder c (some o.unpended)).bindDest c o.unpended = q → (q.hook c).state ≠ .empty →
          (q.over c o).clearDest c = w →
          exec .pendingCommandQueued s = .next (s.withPart (w.verdict c o.tag .refused (some why) o.target.x o.permitted)) := by
        intro q w hbind hstate hclear
        refine hrefused w ?_
        subst hu
        rw [Part.forwardCommand_lower_refused hactive hlower hd hclaim hkind hs hplace htarget hbind hstate, hclear]
      have hweighed' : ∀ v : Part, ∀ dst, ((v.setHook c { u.hook c with dest := dst }).hook c).state ≠ .empty := by
        intro v dst
        rw [Part.setHook_hook, hu]
        exact hweighed
      have hdest : (u.hook c).dest = none := by rw [hu]; exact hd
      have hcoil' : (u.hook c).coil = some coil := by rw [hu]; exact hcoil
      refine ⟨?_, fun b k hloc => ?_⟩
      · intro i g hloc reserved
        refine ⟨fun r hslot hlapsed => ?_, fun hslot => ?_⟩
        · have hslot' : u.slots.slot i = some ⟨g, .reserved r⟩ := by rw [hu]; exact hslot
          have hclear := Part.unlowered_slot (p := u.setOrder c (some o.unpended)) (c := c) (o := o) (x := o.target.x) (y := o.target.y)
            (w := coil.weight) hdest ⟨_, hslot'⟩ hlapsed
          rw [Part.over_setOrder] at hclear
          have h := hback _ _ (Part.bindDest_reserved (g := g) hloc hcoil' hslot') (hweighed' _ _) hclear
          subst hu
          exact h
        · have hslot' : u.slots.slot i = some ⟨g, .free⟩ := by rw [hu]; exact hslot
          have hclear := Part.unlowered_slot (p := u.setOrder c (some o.unpended)) (c := c) (o := o) (x := o.target.x) (y := o.target.y)
            (w := coil.weight) (r := placementReservation coil u.reservationExpiry) hdest ⟨_, hslot'⟩ rfl
          rw [Part.over_setOrder] at hclear
          have h := hback _ _ (Part.bindDest_free (g := g) hloc hcoil' hslot') (hweighed' _ _) hclear
          subst hu
          exact h
      · have hplacement : ((u.bay b).plan.bind fun pl => pl.placement k).isSome = true := by
          rw [hu]
          exact Part.placement_of_check hplace hkind hloc hcoil
        have hclear := Part.unlowered_bay (p := u.setOrder c (some o.unpended)) (c := c) (o := o) (x := o.target.x) (y := o.target.y)
          hdest hplacement
        rw [Part.over_setOrder] at hclear
        have h := hback _ _ (Part.bindDest_bay hloc hcoil') (hweighed' _ _) hclear
        subst hu
        exact h

end Sys2Proof.Machine
end

section
/-! O14, first part. An accepted POSITION: the record, the envelope, the ordering check and the cab check (R5 to R15, R155, R156). -/

namespace Sys2Proof.Machine

/-! ## The telegram (R7 to R9) -/

theorem CraneRecord.accepts_iff (r : CraneRecord) (seq : Byte) :
    r.accepts seq = true ↔ (r.tracking = .tracked →
      (r.last.all fun old => 1 ≤ (seq - old.seq).toNat && (seq - old.seq).toNat ≤ 127) = true) := by
  unfold CraneRecord.accepts
  cases r.tracking <;> cases r.last <;> simp [newer]

/-- The gripper and the drive state that a telegram's codes name (R8). -/
def gripperOf (n : Nat) : Gripper := if n = 0 then .opened else .closed

def driveOf (n : Nat) : Drive := if n = 0 then .ready else if n = 1 then .moving else if n = 2 then .manual else .fault

theorem readGripper_eq (n : Nat) : readGripper n = (gripperOf n, decide (1 < n)) := by
  match n with
  | 0 => rfl
  | 1 => rfl
  | n + 2 => simp [readGripper, gripperOf]

theorem readDrive_eq (n : Nat) : readDrive n = (driveOf n, decide (3 < n)) := by
  match n with
  | 0 => rfl
  | 1 => rfl
  | 2 => rfl
  | 3 => rfl
  | n + 4 => simp [readDrive, driveOf]

/-- A telegram with its fields brought into range (R8). -/
def RawPosition.telegram (r : RawPosition) (length : Nat) (seq : Byte) (now : Time) : Telegram :=
  ⟨seq, min r.x (length - 1), r.y, min r.z 16383, max (-4095) (min 4095 r.vx), max (-4095) (min 4095 r.vy), gripperOf r.gripper,
    driveOf r.drive, r.tag, now⟩

theorem bringIntoRange_telegram (length : Nat) (seq : Byte) (now : Time) (r : RawPosition) :
    (bringIntoRange length seq now r).1 = r.telegram length seq now := by
  simp only [bringIntoRange, readGripper_eq, readDrive_eq]
  rfl

theorem bringIntoRange_changed (length : Nat) (seq : Byte) (now : Time) (r : RawPosition) :
    (bringIntoRange length seq now r).2 = true ↔ length - 1 < r.x ∨ 16383 < r.z ∨ max (-4095) (min 4095 r.vx) ≠ r.vx
      ∨ max (-4095) (min 4095 r.vy) ≠ r.vy ∨ 1 < r.gripper ∨ 3 < r.drive := by
  have hmin : ∀ a b : Nat, min a b ≠ a ↔ b < a := fun a b => by omega
  simp only [bringIntoRange, readGripper_eq, readDrive_eq, clampVelocity, Bool.or_eq_true, bne_iff_ne, decide_eq_true_eq, hmin,
    or_assoc]

/-! ## The envelope (R15 to R20) -/

section
variable {p q : Part}

theorem Part.tiles_congr (hz : ∀ k, (q.zone k).entry = (p.zone k).entry) (hp : q.params = p.params) : q.tiles = p.tiles := by
  have hdefined : ∀ k, (q.zone k).defined = (p.zone k).defined := fun k => congrArg ZoneEntry.defined (hz k)
  have hstart : ∀ k, (q.zone k).start = (p.zone k).start := fun k => congrArg ZoneEntry.start (hz k)
  have hfails : q.tilingFails = p.tilingFails := by
    funext k
    simp only [Part.tilingFails, hdefined, hstart, hp]
  rw [Part.tiles, Part.tilingFailure, hfails, Part.tiles, Part.tilingFailure]

/-- The envelope follows the tables, the parameters and the clock (R15). -/
theorem Part.envelopeAt_congr (h : p.SameTables q) (c : Fin 4) (t : Telegram) (age : Nat) :
    q.envelopeAt c t age = p.envelopeAt c t age := by
  have hentry : q.entry c = p.entry c := by rw [Part.entry, Part.entry, h.entries]
  have hnow : q.now = p.now := h.clock
  have hparams := h.params
  have hzones := h.zones
  simp only [Part.envelopeAt, hentry, hparams, Part.tiles_congr hzones hparams, Part.zoneOf_congr hzones, hnow]

/-- The envelope at age 0 of a telegram that lies on the runway (R15 to R20). -/
theorem Part.envelopeAt_fresh {c : Fin 4} {t : Telegram} (hx : t.x ≤ p.params.length - 1) :
    p.envelopeAt c t 0 =
      let top := p.params.length - 1
      let e := p.entry c
      let stop : Int := stoppingDistance t.vx e.reaction e.decel
      let lo := clampTo top (t.x - e.westExt - (if t.vx < 0 then stop else 0) - e.margin)
      let hi := clampTo top (t.x + e.eastExt + (if 0 < t.vx then stop else 0) + e.margin)
      ⟨lo, hi, if p.tiles then some (p.zoneOf lo, p.zoneOf hi) else none, p.mgmt.clock⟩ := by
  have hnow : clampTo (p.params.length - 1) (extrapolate t.x t.vx 0) = t.x := by
    rw [extrapolate_of_still t.x (.inr rfl)]
    exact Nat.min_eq_left hx
  rw [Part.envelopeAt, hnow]
  rfl

end

/-! ## The record of an accepted POSITION (R9, R10) -/

section
variable {p : Part} {c : Fin 4}

/-- The record of a crane whose telegram is accepted. -/
def CraneRecord.taken (r : CraneRecord) (t : Telegram) (clamped : Bool) : CraneRecord :=
  { r with tracking := .tracked, last := some t, clamp := if clamped then bump r.clamp else r.clamp }

theorem Part.acceptTelegram_keeps_taken (t : Telegram) (clamped : Bool) :
    (p.setRecord c ((p.record c).taken t clamped)).Keeps Scope.tight (p.acceptTelegram c t clamped) := by
  unfold Part.acceptTelegram
  extract_lets r p1 p2
  have htold : p1.Keeps Scope.tight p2 := Part.keeps_ite _ (fun _ => .refl p1) fun _ => p1.notify_keeps _ _ _ _ _
  refine htold.trans ?_
  split
  · exact Part.keeps_ite _ (fun _ => .refl p2) fun _ => p2.notify_keeps _ _ _ _ _
  · exact .refl p2

theorem Part.record_of_records {p q : Part} (h : q.tracker.records = p.tracker.records) (d : Fin 4) : q.record d = p.record d := by
  rw [Part.record, Part.record, h]

/-- The record that an accepted telegram leaves: tracked, with the telegram and its fresh envelope; no other crane's changes (R9, R15). -/
theorem Part.accepted_records {t : Telegram} {clamped : Bool} {g : Gripper} :
    ((p.acceptTelegram c t clamped).handOnPosition c g).record c =
        { (p.record c).taken t clamped with envelope := some (p.envelopeAt c t 0) }
      ∧ ∀ d, d ≠ c → ((p.acceptTelegram c t clamped).handOnPosition c g).record d = p.record d := by
  have hchecked := (p.acceptTelegram_keeps_taken (c := c) t clamped).trans
    (Part.checkOrdering_keeps (S := Scope.tight) (p.acceptTelegram c t clamped) c)
  rw [Part.handOnPosition_eq]
  generalize (p.acceptTelegram c t clamped).checkOrdering c = q at hchecked
  have hrecord : q.record c = (p.record c).taken t clamped :=
    (Part.record_of_records hchecked.records_eq c).trans (p.setRecord_record c _)
  have hother : ∀ d, d ≠ c → q.record d = p.record d := fun d hd =>
    (Part.record_of_records hchecked.records_eq d).trans (p.setRecord_record_ne c d _ hd)
  have henv : q.envelopeAt c t 0 = p.envelopeAt c t 0 :=
    Part.envelopeAt_congr (p := p.setRecord c ((p.record c).taken t clamped)) hchecked.sameTables c t 0
  have hcompute : q.computeEnvelope c 0 =
      (q.setRecord c { (p.record c).taken t clamped with envelope := some (p.envelopeAt c t 0) }).takeEnvelope c
        (p.envelopeAt c t 0).cover := by
    rw [Part.computeEnvelope, hrecord]
    simp only [CraneRecord.taken, henv]
  have hrest : ∀ u : Part, u.Keeps Scope.tight (((u.takeEnvelope c (p.envelopeAt c t 0).cover).takeGripper c g).checkCab c) :=
    fun u => (u.takeEnvelope_keeps c _).trans ((Part.takeGripper_keeps _ c g).trans (Part.checkCab_keeps _ c))
  rw [hcompute]
  have hafter := (hrest (q.setRecord c { (p.record c).taken t clamped with envelope := some (p.envelopeAt c t 0) })).records_eq
  exact ⟨(Part.record_of_records hafter c).trans (q.setRecord_record c _),
    fun d hd => ((Part.record_of_records hafter d).trans (q.setRecord_record_ne c d _ hd)).trans (hother d hd)⟩

theorem Part.positionTelegram_of_accepted {raw : RawPosition} {seq : Byte} {d : List Byte} (hc : (p.entry c).configured = true)
    (hr : readPosition d = some raw) (ha : (p.record c).accepts seq = true) :
    p.positionTelegram c seq d =
      (p.acceptTelegram c (raw.telegram p.params.length seq p.now) (bringIntoRange p.params.length seq p.now raw).2).handOnPosition c
        (gripperOf raw.gripper) := by
  have ht := bringIntoRange_telegram p.params.length seq p.now raw
  simp only [Part.positionTelegram, hc, hr, ha, Bool.not_true, Bool.false_eq_true, if_false, if_true, ht]
  rfl

/-! ## The ordering check (R13, R14) -/

theorem Part.checkOrdering_of_unconfigured (h : (p.entry c).configured = false) : p.checkOrdering c = p := by
  rw [Part.checkOrdering, h]
  rfl

theorem Part.checkPair_of_untracked {w e : Fin 4} (h : (p.record w).tracking ≠ .tracked ∨ (p.record e).tracking ≠ .tracked) :
    p.checkPair w e = p := by
  refine if_pos ?_
  rw [Bool.or_eq_true, bne_iff_ne, bne_iff_ne]
  exact h

theorem Part.checkPair_of_tracked {w e : Fin 4} (hw : (p.record w).tracking = .tracked) (he : (p.record e).tracking = .tracked) :
    p.checkPair w e =
      if 0 ≤ p.overlap w e then
        ((if p.tracker.crossed[w] then p
          else (p.markPair w true).notify .craneState w.val 4 e.val (p.overlap w e).toNat).requestStop w .ordering none).requestStop e
            .ordering none
      else if p.tracker.crossed[w] then (p.markPair w false).notify .craneState w.val 5 e.val 0 else p := by
  refine if_neg ?_
  rw [hw, he]
  decide

/-! ## The cab check (R155, R156) -/

theorem BayEntry.inCab_iff (e : BayEntry) (x y : Nat) :
    e.inCab x y = true ↔ e.yLo ≤ y ∧ y ≤ e.yHi ∧ (e.front = .east → e.axle ≤ x ∧ x ≤ e.axle + e.cab)
      ∧ (e.front = .west → e.axle ≤ x + e.cab ∧ x ≤ e.axle) := by
  cases h : e.front <;> simp [BayEntry.inCab, h, and_comm, and_assoc]

theorem Part.inCabArea_iff (x y : Nat) : p.inCabArea x y = true ↔
    ∃ b : Fin 6, (p.bayEntry b).configured = true ∧ (p.bay b).state ≠ .empty ∧ (p.bayEntry b).inCab x y = true := by
  simp only [Part.inCabArea, List.any_eq_true, Bool.and_eq_true, bne_iff_ne, and_assoc]
  exact ⟨fun ⟨b, _, h⟩ => ⟨b, h⟩, fun ⟨b, h⟩ => ⟨b, mem_bayList b, h⟩⟩

theorem Hook.loaded_iff (h : Hook) : h.loaded = true ↔ h.state = .lifting ∨ h.state = .weighed := by
  simp only [Hook.loaded, Bool.or_eq_true, beq_iff_eq]

end

end Sys2Proof.Machine
end

section
/-! O14, second part. An envelope that reaches the arbiter: auto-extension and release (R31 to R35). -/

namespace Sys2Proof.Machine

section
variable {p : Part} {c : Fin 4} {r : Run}

/-! ## The grant run as a part of the runway (R26) -/

theorem Part.regrant_run (a b : Nat) : (p.regrant c r a b).run c = some ⟨a, b⟩ := Vector.getElem_set_self c.isLt

/-- A zone once the grant run has become the zones from `a` to `b` (R26). -/
def Part.regranted (p : Part) (c : Fin 4) (r : Run) (a b : Nat) (k : Fin 32) : Zone :=
  { p.arbiter.zones[k] with
    grant :=
      if (r.lo ≤ k.val ∧ k.val ≤ r.hi) ∧ ¬ (a ≤ k.val ∧ k.val ≤ b) then none
      else if (a ≤ k.val ∧ k.val ≤ b) ∧ ¬ (r.lo ≤ k.val ∧ k.val ≤ r.hi) then some c
      else p.arbiter.zones[k].grant }

/-- The part with its zones and a crane's run replaced. -/
def Part.withGrant (p : Part) (c : Fin 4) (zs : Vector Zone 32) (a b : Nat) : Part :=
  { p with arbiter := { p.arbiter with zones := zs, runs := p.arbiter.runs.set c (some ⟨a, b⟩) } }

theorem Part.withGrant_withGrant (zs zs' : Vector Zone 32) (a b a' b' : Nat) :
    (p.withGrant c zs a b).withGrant c zs' a' b' = p.withGrant c zs' a' b' :=
  congrArg (fun rs => { p with arbiter := { p.arbiter with zones := zs', runs := rs } }) (Vector.set_set ..)

theorem Part.regrant_eq (a b : Nat) : p.regrant c r a b = p.withGrant c (Vector.ofFn (p.regranted c r a b)) a b := rfl

theorem Part.regrant_zones (a b : Nat) (k : Fin 32) : (p.regrant c r a b).arbiter.zones[k] = p.regranted c r a b k := by
  rw [Part.regrant_eq, Part.withGrant, Fin.getElem_fin, Vector.getElem_ofFn]

theorem Part.regrant_zone (a b : Nat) (k : Fin 32) : (p.regrant c r a b).zone k.val = p.regranted c r a b k := by
  rw [Part.zone_fin, Part.regrant_zones]

/-- A change of one zone that makes the run another one. -/
theorem Part.withGrant_of_zone {a b a' b' : Nat} {k : Fin 32} {z : Zone} (hz : z = p.regranted c r a' b' k)
    (hrest : ∀ j : Fin 32, j ≠ k → p.regranted c r a b j = p.regranted c r a' b' j) :
    (p.regrant c r a b).withGrant c ((p.regrant c r a b).arbiter.zones.set k z) a' b' = p.regrant c r a' b' := by
  have hzones : (p.regrant c r a b).arbiter.zones.set k z = Vector.ofFn (p.regranted c r a' b') := by
    refine Vector.ext fun i hi => ?_
    rw [Vector.getElem_ofFn, Vector.getElem_set]
    split
    next h =>
      subst h
      exact hz
    next h => exact (Part.regrant_zones a b ⟨i, hi⟩).trans (hrest ⟨i, hi⟩ fun hj => h (congrArg Fin.val hj).symm)
  rw [hzones, Part.regrant_eq, Part.withGrant_withGrant, ← Part.regrant_eq]

/-- The run that a crane has already. -/
theorem Part.regrant_self (hr : p.run c = some r) : p.regrant c r r.lo r.hi = p := by
  have hzones : Vector.ofFn (p.regranted c r r.lo r.hi) = p.arbiter.zones := by
    refine Vector.ext fun i hi => ?_
    rw [Vector.getElem_ofFn, Part.regranted, if_neg (fun h => h.2 h.1), if_neg (fun h => h.2 h.1)]
    rfl
  have hruns : p.arbiter.runs.set c (some r) = p.arbiter.runs := by
    have h : p.arbiter.runs[c] = some r := hr
    rw [← h]
    exact Vector.set_getElem_self c.isLt
  rw [Part.regrant_eq, hzones]
  exact congrArg (fun rs => { p with arbiter := { p.arbiter with runs := rs } }) hruns

/-! ## Auto-extension (R31, R32) -/

theorem Part.give_withGrant {a b : Nat} {k : Fin 32} {g : Run} (hr : p.run c = some g) (hrun : g.extend k = ⟨a, b⟩) :
    p.give c k = p.withGrant c (p.arbiter.zones.set k { p.arbiter.zones[k] with grant := some c }) a b := by
  rw [Part.give_eq, hr]
  simp only [hrun]
  rfl

/-- A run that has grown by one more zone. -/
theorem Part.regrant_give {a b a' b' : Nat} {k : Fin 32} (hrun : (⟨a, b⟩ : Run).extend k = ⟨a', b'⟩)
    (hgrow : ∀ j : Nat, (a' ≤ j ∧ j ≤ b') ↔ (a ≤ j ∧ j ≤ b) ∨ j = k.val) (hout : ¬ (r.lo ≤ k.val ∧ k.val ≤ r.hi)) :
    (p.regrant c r a b).give c k = p.regrant c r a' b' := by
  rw [Part.give_withGrant (Part.regrant_run a b) hrun]
  have hin : a' ≤ k.val ∧ k.val ≤ b' := (hgrow k.val).2 (.inr rfl)
  refine Part.withGrant_of_zone ?_ fun j hj => ?_
  · have hzone : p.regranted c r a' b' k = { p.arbiter.zones[k] with grant := some c } := by
      rw [Part.regranted, if_neg (fun h => h.2 hin), if_pos ⟨hin, hout⟩]
    rw [Part.regrant_zones, hzone, Part.regranted]
  · have hiff : (a' ≤ j.val ∧ j.val ≤ b') ↔ (a ≤ j.val ∧ j.val ≤ b) :=
      (hgrow j.val).trans (or_iff_left fun h => hj (Fin.ext h))
    simp only [Part.regranted, hiff]

theorem Part.regranted_outside {a b : Nat} {k : Fin 32} (ha : a ≤ r.lo) (hb : r.hi ≤ b) (hk : ¬ (a ≤ k.val ∧ k.val ≤ b)) :
    p.regranted c r a b k = p.arbiter.zones[k] := by
  have hout : ¬ (r.lo ≤ k.val ∧ k.val ≤ r.hi) := fun hin => hk ⟨ha.trans hin.1, hin.2.trans hb⟩
  rw [Part.regranted, if_neg (fun h => hout h.1), if_neg (fun h => hk h.1)]

theorem Part.opens_of_zone {q : Part} {k : Nat} {z : Zone} (hz : q.zone k = z) (hh : q.hook c = p.hook c) (h : p.Opens c z) :
    ((q.zone k).grantable && (q.zone k).permits (q.hook c)) = true := by
  rw [hz, hh]
  exact (p.opens_iff c z).1 h

theorem Part.withGrant_hook (zs : Vector Zone 32) (a b : Nat) (d : Fin 4) : (p.withGrant c zs a b).hook d = p.hook d := rfl

theorem Part.regrant_hook (a b : Nat) (d : Fin 4) : (p.regrant c r a b).hook d = p.hook d := by
  rw [Part.regrant_eq, Part.withGrant_hook]

theorem Part.regrant_opens {a b : Nat} {k : Fin 32} (ha : a ≤ r.lo) (hb : r.hi ≤ b) (hk : ¬ (a ≤ k.val ∧ k.val ≤ b))
    (h : p.Opens c p.arbiter.zones[k]) :
    (((p.regrant c r a b).zone k.val).grantable && ((p.regrant c r a b).zone k.val).permits ((p.regrant c r a b).hook c)) = true :=
  Part.opens_of_zone ((Part.regrant_zone a b k).trans (Part.regranted_outside ha hb hk)) (Part.regrant_hook a b c) h

/-- One step of the auto-extension to the east (R32, R33). -/
theorem Part.autoExtend_east_succ {g : Run} (n hi : Nat) (hr : p.run c = some g) :
    Part.autoExtend (n + 1) p c .east hi =
      if g.hi < hi then
        if (p.zone (g.hi + 1)).grantable && (p.zone (g.hi + 1)).permits (p.hook c) then
          Part.autoExtend n (p.give c (g.hi + 1)) c .east hi
        else p.requestStop c .intrusion none
      else p := by
  rw [Part.autoExtend, hr]
  by_cases h : g.hi < hi
  · rw [if_pos h]
    exact if_neg (by simp [h])
  · rw [if_neg h]
    exact if_pos (by simp [h])

/-- One step of the auto-extension to the west (R32, R33). -/
theorem Part.autoExtend_west_succ {g : Run} (n lo : Nat) (hr : p.run c = some g) :
    Part.autoExtend (n + 1) p c .west lo =
      if lo < g.lo then
        if (p.zone (g.lo - 1)).grantable && (p.zone (g.lo - 1)).permits (p.hook c) then
          Part.autoExtend n (p.give c (g.lo - 1)) c .west lo
        else p.requestStop c .intrusion none
      else p := by
  rw [Part.autoExtend, hr]
  by_cases h : lo < g.lo
  · rw [if_pos h]
    exact if_neg (by simp [h])
  · rw [if_neg h]
    exact if_pos (by simp [h])

/-- The grant grows to the east over open zones up to the cover (R32). -/
theorem Part.autoExtend_east {a b hi : Nat} (n : Nat) (ha : a ≤ r.lo) (hb : r.hi ≤ b) (hab : a ≤ b) (hhi : hi < 32) (hn : hi < b + n)
    (h : ∀ k : Fin 32, b < k.val → k.val ≤ hi → p.Opens c p.arbiter.zones[k]) :
    Part.autoExtend n (p.regrant c r a b) c .east hi = p.regrant c r a (max b hi) := by
  induction n generalizing b with
  | zero => rw [Nat.max_eq_left (by omega), Part.autoExtend]
  | succ n ih =>
    rw [Part.autoExtend_east_succ n hi (Part.regrant_run a b)]
    by_cases hlt : b < hi
    · obtain ⟨k, hk⟩ : ∃ k : Fin 32, k.val = b + 1 := ⟨⟨b + 1, by omega⟩, rfl⟩
      have hopens := Part.regrant_opens (a := a) (b := b) ha hb (by omega) (h k (by omega) (by omega))
      have hgive := Part.regrant_give (p := p) (c := c) (r := r) (a := a) (b := b) (a' := a) (b' := k.val)
        (Run.extend_east _ hk) (fun j => by omega) (by omega)
      rw [if_pos hlt, ← hk, if_pos hopens, hgive, ih (by omega) (by omega) (by omega) fun j hj hle => h j (by omega) hle]
      congr 1
      omega
    · rw [if_neg hlt, Nat.max_eq_left (by omega)]

/-- The grant grows to the west over open zones up to the cover (R32). -/
theorem Part.autoExtend_west {a b lo : Nat} (n : Nat) (ha : a ≤ r.lo) (hb : r.hi ≤ b) (hab : a ≤ b) (ha' : a < 32) (hn : a < lo + n)
    (h : ∀ k : Fin 32, lo ≤ k.val → k.val < a → p.Opens c p.arbiter.zones[k]) :
    Part.autoExtend n (p.regrant c r a b) c .west lo = p.regrant c r (min lo a) b := by
  induction n generalizing a with
  | zero => rw [Nat.min_eq_right (by omega), Part.autoExtend]
  | succ n ih =>
    rw [Part.autoExtend_west_succ n lo (Part.regrant_run a b)]
    by_cases hlt : lo < a
    · obtain ⟨k, hk⟩ : ∃ k : Fin 32, k.val = a - 1 := ⟨⟨a - 1, by omega⟩, rfl⟩
      have hopens := Part.regrant_opens (a := a) (b := b) ha hb (by omega) (h k (by omega) (by omega))
      have hgive := Part.regrant_give (p := p) (c := c) (r := r) (a := a) (b := b) (a' := k.val) (b' := b)
        (Run.extend_west ⟨a, b⟩ (k := k.val) (by simp only []; omega) hab) (fun j => by omega) (by omega)
      rw [if_pos hlt, ← hk, if_pos hopens, hgive, ih (by omega) (by omega) (by omega) (by omega) fun j hle hj => h j hle (by omega)]
      congr 1
      omega
    · rw [if_neg hlt, Nat.min_eq_right (by omega)]

theorem Part.autoExtend_east_within {n hi : Nat} (hr : p.run c = some r) (h : hi ≤ r.hi) :
    Part.autoExtend (n + 1) p c .east hi = p := by
  rw [Part.autoExtend_east_succ n hi hr, if_neg (Nat.not_lt.2 h)]

theorem Part.autoExtend_west_within {n lo : Nat} (hr : p.run c = some r) (h : r.lo ≤ lo) :
    Part.autoExtend (n + 1) p c .west lo = p := by
  rw [Part.autoExtend_west_succ n lo hr, if_neg (Nat.not_lt.2 h)]

/-- The first zone beyond the east end is not open: the crane is stopped (R33). -/
theorem Part.autoExtend_east_stops {n hi : Nat} {k : Fin 32} (hr : p.run c = some r) (hk : k.val = r.hi + 1) (h : k.val ≤ hi)
    (hnot : ¬ p.Opens c p.arbiter.zones[k]) : Part.autoExtend (n + 1) p c .east hi = p.requestStop c .intrusion none := by
  rw [Part.autoExtend_east_succ n hi hr, if_pos (by omega), ← hk, p.zone_fin k,
    if_neg fun h => hnot ((p.opens_iff c _).2 h)]

/-- The first zone beyond the west end is not open: the crane is stopped (R33). -/
theorem Part.autoExtend_west_stops {n lo : Nat} {k : Fin 32} (hr : p.run c = some r) (hk : k.val + 1 = r.lo) (h : lo ≤ k.val)
    (hnot : ¬ p.Opens c p.arbiter.zones[k]) : Part.autoExtend (n + 1) p c .west lo = p.requestStop c .intrusion none := by
  have hpred : r.lo - 1 = k.val := by omega
  rw [Part.autoExtend_west_succ n lo hr, if_pos (by omega), hpred, p.zone_fin k,
    if_neg fun h => hnot ((p.opens_iff c _).2 h)]

theorem Part.takeEnvelope_eq {lo hi : Nat} (hm : p.mgmt.mode ≠ .startup) :
    p.takeEnvelope c (some (lo, hi)) = (Part.autoExtend 33 (Part.autoExtend 33 p c .east hi) c .west lo).release c (lo, hi) := by
  unfold Part.takeEnvelope
  cases h : p.mgmt.mode with
  | startup => exact absurd h hm
  | _ => rfl

/-! ## Release (R34, R35) -/

/-- The outermost zone of a run at one end (R35). -/
def Run.endZone (g : Run) : Direction → Nat
  | .east => g.hi
  | .west => g.lo

/-- A run of two zones or more without its outermost zone at one end. -/
def Run.shrunk (g : Run) : Direction → Run
  | .east => ⟨g.lo, g.hi - 1⟩
  | .west => ⟨g.lo + 1, g.hi⟩

theorem Part.releaseOne_eq {d : Direction} {g : Run} (hne : g.lo ≠ g.hi) :
    p.releaseOne c d g =
      ((p.setRun c (some (g.shrunk d))).setZone (g.endZone d) { p.zone (g.endZone d) with grant := none }).handOn (g.endZone d) := by
  cases d with
  | east => simp only [Part.releaseOne, if_neg hne, Run.shrunk, Run.endZone]
  | west => simp only [Part.releaseOne, if_neg hne, Run.shrunk, Run.endZone]

theorem Part.releaseOne_withGrant {d : Direction} {g : Run} {a b : Nat} {k : Fin 32} (hk : g.endZone d = k.val)
    (hne : g.lo ≠ g.hi) (hg : g.shrunk d = ⟨a, b⟩) (hfree : p.arbiter.zones[k].waiters = []) :
    p.releaseOne c d g = p.withGrant c (p.arbiter.zones.set k { p.arbiter.zones[k] with grant := none }) a b := by
  rw [Part.releaseOne_eq hne, hk, hg, Part.handOn_of_no_waiters, Part.setZone_eq_withZones, p.zone_fin k]
  · rfl
  · rw [Part.setZone_zone _ _ _ k.isLt, p.zone_fin k]
    exact hfree

/-- A run that has shrunk by one of its zones. -/
theorem Part.regrant_releaseOne {d : Direction} {a b a' b' : Nat} {k : Fin 32}
    (hk : (⟨a, b⟩ : Run).endZone d = k.val) (hab : a < b) (hg : (⟨a, b⟩ : Run).shrunk d = ⟨a', b'⟩)
    (hshrink : ∀ j : Nat, (a' ≤ j ∧ j ≤ b') ↔ (a ≤ j ∧ j ≤ b) ∧ j ≠ k.val) (hin : r.lo ≤ k.val ∧ k.val ≤ r.hi)
    (hfree : p.arbiter.zones[k].waiters = []) :
    (p.regrant c r a b).releaseOne c d ⟨a, b⟩ = p.regrant c r a' b' := by
  rw [Part.releaseOne_withGrant (g := ⟨a, b⟩) hk (Nat.ne_of_lt hab) hg]
  · have hout : ¬ (a' ≤ k.val ∧ k.val ≤ b') := fun h => ((hshrink k.val).1 h).2 rfl
    refine Part.withGrant_of_zone ?_ fun j hj => ?_
    · have hzone : p.regranted c r a' b' k = { p.arbiter.zones[k] with grant := none } := by
        rw [Part.regranted, if_pos ⟨hin, hout⟩]
      rw [Part.regrant_zones, hzone, Part.regranted]
    · have hiff : (a' ≤ j.val ∧ j.val ≤ b') ↔ (a ≤ j.val ∧ j.val ≤ b) :=
        (hshrink j.val).trans (and_iff_left fun h => hj (Fin.ext h))
      simp only [Part.regranted, hiff]
  · rw [Part.regrant_zones, Part.regranted]
    exact hfree

theorem Part.releaseEnd_succ {g : Run} {d : Direction} (n : Nat) (kept : List Nat) (hr : p.run c = some g) :
    Part.releaseEnd (n + 1) p c d kept =
      if kept.contains (g.endZone d) then p else Part.releaseEnd n (p.releaseOne c d g) c d kept := by
  rw [Part.releaseEnd, hr]
  cases d with
  | east => rfl
  | west => rfl

section
variable {kept : List Nat} (hr32 : r.hi < 32)
  (hfree : ∀ k : Fin 32, r.lo ≤ k.val → k.val ≤ r.hi → p.arbiter.zones[k].waiters = [])
include hr32 hfree

/-- The east end of the run moves in to the first zone kept (R35). -/
theorem Part.releaseEnd_east {a b b' : Nat} (n : Nat) (hkept : b' ∈ kept) (hnot : ∀ k, b' < k → k ≤ b → k ∉ kept)
    (hab : a ≤ b') (hbb : b' ≤ b) (hlo : r.lo ≤ a) (hhi : b ≤ r.hi) (hn : b < b' + n) :
    Part.releaseEnd n (p.regrant c r a b) c .east kept = p.regrant c r a b' := by
  induction n generalizing b with
  | zero => omega
  | succ n ih =>
    rw [Part.releaseEnd_succ n kept (Part.regrant_run a b)]
    by_cases hlt : b' < b
    · obtain ⟨k, hk⟩ : ∃ k : Fin 32, k.val = b := ⟨⟨b, by omega⟩, rfl⟩
      rw [if_neg (by simpa [Run.endZone] using hnot b hlt (Nat.le_refl b)),
        Part.regrant_releaseOne (d := .east) (a' := a) (b' := b - 1) (k := k) hk.symm (by omega) rfl (fun j => by omega)
          (by omega) (hfree k (by omega) (by omega)),
        ih (fun j h hle => hnot j h (by omega)) (by omega) (by omega) (by omega)]
    · have hb : b = b' := by omega
      rw [if_pos (by simpa [Run.endZone, hb] using hkept), hb]

/-- The west end of the run moves in to the first zone kept (R35). -/
theorem Part.releaseEnd_west {a a' b : Nat} (n : Nat) (hkept : a' ∈ kept) (hnot : ∀ k, a ≤ k → k < a' → k ∉ kept)
    (hab : a' ≤ b) (haa : a ≤ a') (hlo : r.lo ≤ a) (hhi : b ≤ r.hi) (hn : a' < a + n) :
    Part.releaseEnd n (p.regrant c r a b) c .west kept = p.regrant c r a' b := by
  induction n generalizing a with
  | zero => omega
  | succ n ih =>
    rw [Part.releaseEnd_succ n kept (Part.regrant_run a b)]
    by_cases hlt : a < a'
    · obtain ⟨k, hk⟩ : ∃ k : Fin 32, k.val = a := ⟨⟨a, by omega⟩, rfl⟩
      rw [if_neg (by simpa [Run.endZone] using hnot a (Nat.le_refl a) hlt),
        Part.regrant_releaseOne (d := .west) (a' := a + 1) (b' := b) (k := k) hk.symm (by omega) rfl (fun j => by omega)
          (by omega) (hfree k (by omega) (by omega)),
        ih (fun j hle h => hnot j (by omega) h) (by omega) (by omega) (by omega)]
    · have ha : a = a' := by omega
      rw [if_pos (by simpa [Run.endZone, ha] using hkept), ha]

/-- The run becomes what lies between the outermost zones kept (R35). -/
theorem Part.release_of_kept {cover : Nat × Nat} {a b : Nat} (hr : p.run c = some r) (ha : a ∈ p.keptZones c cover r)
    (hb : b ∈ p.keptZones c cover r) (hwithin : ∀ k ∈ p.keptZones c cover r, a ≤ k ∧ k ≤ b) (hlo : r.lo ≤ a)
    (hhi : b ≤ r.hi) :
    p.release c cover = p.regrant c r a b := by
  have hab : a ≤ b := (hwithin a ha).2
  have heast := Part.releaseEnd_east (c := c) hr32 hfree 32 hb (fun k h _ hk => Nat.not_le.2 h (hwithin k hk).2) (by omega) hhi
    (Nat.le_refl r.lo) (Nat.le_refl r.hi) (by omega)
  have hwest := Part.releaseEnd_west (c := c) hr32 hfree 32 ha (fun k _ h hk => Nat.not_le.2 h (hwithin k hk).1) hab hlo
    (Nat.le_refl r.lo) hhi (by omega)
  rw [Part.regrant_self hr] at heast
  simp only [Part.release, hr]
  rw [heast, hwest]

end

/-! ## The zones kept (R34, R35) -/

section
variable {lo hi : Nat}

theorem Part.mem_kept_iff (k : Nat) :
    (k ∈ zoneList.filter fun k => decide (r.lo ≤ k) && decide (k ≤ r.hi)
        && ((decide (lo ≤ k) && decide (k ≤ hi)) || p.keptByOrder c (lo, hi) k)) ↔
      k < 32 ∧ r.lo ≤ k ∧ k ≤ r.hi ∧ ((lo ≤ k ∧ k ≤ hi) ∨ p.keptByOrder c (lo, hi) k = true) := by
  simp only [zoneList, List.mem_filter, List.mem_range, Bool.and_eq_true, Bool.or_eq_true, decide_eq_true_eq, and_assoc]

/-- The zones kept, when there are some (R34). -/
theorem Part.mem_keptZones {j : Nat} (hj : j < 32 ∧ r.lo ≤ j ∧ j ≤ r.hi ∧ lo ≤ j ∧ j ≤ hi) (k : Nat) :
    k ∈ p.keptZones c (lo, hi) r ↔
      k < 32 ∧ r.lo ≤ k ∧ k ≤ r.hi ∧ ((lo ≤ k ∧ k ≤ hi) ∨ p.keptByOrder c (lo, hi) k = true) := by
  obtain ⟨h32, hlo, hhi, hcover⟩ := hj
  have hne := List.ne_nil_of_mem ((Part.mem_kept_iff (p := p) (c := c) j).2 ⟨h32, hlo, hhi, .inl hcover⟩)
  rw [Part.keptZones, if_neg (by rwa [List.isEmpty_iff]), Part.mem_kept_iff]

/-- With none kept by the envelope or the order, the zone of the grant nearest to the envelope is (R35). -/
theorem Part.keptZones_of_none (h : ∀ k, r.lo ≤ k → k ≤ r.hi → ¬ (lo ≤ k ∧ k ≤ hi)) (ho : p.activeOrder c = none) :
    p.keptZones c (lo, hi) r = [if r.hi < lo then r.hi else r.lo] := by
  refine if_pos ?_
  rw [List.isEmpty_iff, List.eq_nil_iff_forall_not_mem]
  intro k hk
  obtain ⟨-, hlo, hhi, hkept⟩ := (Part.mem_kept_iff k).1 hk
  refine hkept.elim (h k hlo hhi) fun horder => ?_
  rw [Part.keptByOrder, ho] at horder
  exact Bool.false_ne_true horder

/-- The zones an active order keeps (R34). -/
theorem Part.keptByOrder_iff {o : Order} (ho : p.activeOrder c = some o) (k : Nat) :
    p.keptByOrder c (lo, hi) k = true ↔
      ((p.zonesAt c o.permitted).1 ≤ k ∧ k ≤ (p.zonesAt c o.permitted).2)
        ∨ (p.craneX c ≤ o.target.x ∧ hi < k ∧ k ≤ (p.zonesAt c o.permitted).2)
        ∨ (o.target.x < p.craneX c ∧ k < lo ∧ (p.zonesAt c o.permitted).1 ≤ k) := by
  rw [Part.keptByOrder, ho]
  by_cases h : p.craneX c ≤ o.target.x
  · simp [h, Nat.not_lt.2 h, Part.zonesAt]
  · simp [h, Nat.lt_of_not_le h, Part.zonesAt]

end

end

end Sys2Proof.Machine
end

section
/-! O14, third part. The arbiter takes an envelope and trims the grant; an accepted POSITION. -/

namespace Sys2Proof.Machine

section
variable {p : Part} {c : Fin 4} {r : Run} {lo hi : Nat}

/-! ## An envelope at the arbiter (R31 to R33) -/

theorem Part.takeEnvelope_of_none {cover : Option (Nat × Nat)} (h : p.mgmt.mode = .startup ∨ cover = none) :
    p.takeEnvelope c cover = p := by
  unfold Part.takeEnvelope
  cases hm : p.mgmt.mode with
  | startup => rfl
  | run => rw [h.resolve_left (by rw [hm]; decide)]
  | maintenance => rw [h.resolve_left (by rw [hm]; decide)]

theorem Part.takeEnvelope_grows (hm : p.mgmt.mode ≠ .startup) (hr : p.run c = some r) (hlh : r.lo ≤ r.hi) (hr32 : r.hi < 32)
    (hhi : hi < 32)
    (h : ∀ k : Fin 32, (lo ≤ k.val ∧ k.val < r.lo) ∨ (r.hi < k.val ∧ k.val ≤ hi) → p.Opens c p.arbiter.zones[k]) :
    p.takeEnvelope c (some (lo, hi)) = (p.regrant c r (min lo r.lo) (max r.hi hi)).release c (lo, hi) := by
  have heast := Part.autoExtend_east (p := p) (c := c) (r := r) 33 (Nat.le_refl r.lo) (Nat.le_refl r.hi) hlh hhi (by omega)
    fun k hk hle => h k (.inr ⟨hk, hle⟩)
  have hwest := Part.autoExtend_west (p := p) (c := c) (r := r) (b := max r.hi hi) 33 (Nat.le_refl r.lo) (by omega) (by omega) (by omega)
    (by omega) fun k hle hk => h k (.inl ⟨hle, hk⟩)
  rw [Part.regrant_self hr] at heast
  rw [Part.takeEnvelope_eq hm, heast, hwest]

theorem Part.requestStop_run (cause : StopCause) (bay : Option (Fin 6)) : (p.requestStop c cause bay).run c = p.run c := by
  rw [Part.run, (p.requestStop_onlyCrane c cause bay).runs, Part.run]

theorem Part.takeEnvelope_stops {k : Fin 32} (hm : p.mgmt.mode ≠ .startup) (hr : p.run c = some r)
    (hk : (k.val = r.hi + 1 ∧ k.val ≤ hi ∧ r.lo ≤ lo) ∨ (k.val + 1 = r.lo ∧ lo ≤ k.val ∧ hi ≤ r.hi))
    (hnot : ¬ p.Opens c p.arbiter.zones[k]) :
    p.takeEnvelope c (some (lo, hi)) = (p.requestStop c .intrusion none).release c (lo, hi) := by
  rw [Part.takeEnvelope_eq hm]
  rcases hk with ⟨hk, hle, hlo⟩ | ⟨hk, hle, hhi⟩
  · rw [Part.autoExtend_east_stops hr hk hle hnot,
      Part.autoExtend_west_within ((Part.requestStop_run _ _).trans hr) hlo]
  · rw [Part.autoExtend_east_within hr hhi, Part.autoExtend_west_stops hr hk hle hnot]

/-! ## Release (R34, R35) -/

section
variable (hr : p.run c = some r) (hlh : r.lo ≤ r.hi) (hr32 : r.hi < 32) 
  (hfree : ∀ k : Fin 32, r.lo ≤ k.val → k.val ≤ r.hi → p.arbiter.zones[k].waiters = [])
include hr hlh hr32 hfree

/-- With nothing kept, one zone of the grant stays (R35). -/
theorem Part.release_to_nearest (ho : p.activeOrder c = none) (hout : hi < r.lo ∨ r.hi < lo) :
    p.release c (lo, hi) = p.regrant c r (if r.hi < lo then r.hi else r.lo) (if r.hi < lo then r.hi else r.lo) := by
  have hkept := Part.keptZones_of_none (p := p) (c := c) (r := r) (lo := lo) (hi := hi) (fun k _ _ h => by omega) ho
  refine Part.release_of_kept hr32 hfree hr ?_ ?_ (fun k hk => ?_) (by split <;> omega) (by split <;> omega)
  · rw [hkept, List.mem_singleton]
  · rw [hkept, List.mem_singleton]
  · rw [hkept, List.mem_singleton] at hk
    omega

theorem Part.release_to_cover (ho : p.activeOrder c = none) (hcover : lo ≤ hi) (hlo : r.lo ≤ hi) (hhi : lo ≤ r.hi) :
    p.release c (lo, hi) = p.regrant c r (max lo r.lo) (min r.hi hi) := by
  have horder : ∀ k, p.keptByOrder c (lo, hi) k = false := fun k => by rw [Part.keptByOrder, ho]
  have hkept := Part.mem_keptZones (p := p) (c := c) (r := r) (lo := lo) (hi := hi) (j := max lo r.lo) (by omega)
  simp only [horder, Bool.false_eq_true, or_false] at hkept
  exact Part.release_of_kept hr32 hfree hr ((hkept _).2 (by omega)) ((hkept _).2 (by omega))
    (fun k hk => by have := (hkept k).1 hk; omega) (by omega) (by omega)

theorem Part.release_with_order {o : Order} {a b : Nat} (ho : p.activeOrder c = some o) (hz : p.zonesAt c o.permitted = (a, b))
    (hcover : lo ≤ hi) (hlo : r.lo ≤ hi) (hhi : lo ≤ r.hi) (hb : r.lo ≤ b) (ha : a ≤ r.hi) (hab : a ≤ b) :
    p.release c (lo, hi) = p.regrant c r (max r.lo (min lo a)) (min r.hi (max hi b)) := by
  have hkept := Part.mem_keptZones (p := p) (c := c) (r := r) (lo := lo) (hi := hi) (j := max lo r.lo) (by omega)
  simp only [Part.keptByOrder_iff ho, hz] at hkept
  exact Part.release_of_kept hr32 hfree hr ((hkept _).2 (by omega)) ((hkept _).2 (by omega))
    (fun k hk => by have := (hkept k).1 hk; omega) (by omega) (by omega)

end

end

/-! ## O14 -/

/-- Settles O14. -/
theorem positionIsAccepted : Obligations.PositionIsAccepted := by
  unfold Obligations.PositionIsAccepted
  refine ⟨?_, fun p c => Part.checkOrdering_of_unconfigured, ?_, ?_, ?_, fun p c cover => Part.takeEnvelope_of_none, ?_, ?_⟩
  · intro s c f raw ht hq hc hread hnewer e top x vx vy gripper drive changed stop lo hi
    obtain ⟨q, hdrop⟩ : ∃ q, s.part.dropCrane = q := ⟨_, rfl⟩
    have hkeep : ∀ S, s.part.Keeps S q := fun S => hdrop ▸ s.part.dropCrane_keeps
    have hrecord : ∀ d, q.record d = s.part.record d := Part.record_of_records (hkeep Scope.tight).records_eq
    have hsame : s.part.SameTables q := (hkeep Scope.tight).sameTables
    have hentry : q.entry c = s.part.entry c := by rw [Part.entry, Part.entry, hsame.entries]
    have hnow : q.now = s.part.mgmt.clock := hsame.clock
    have hexec := exec_position_of_telegram ht hq (by rw [hdrop])
    have haccept := Part.positionTelegram_of_accepted (by rw [hentry, hc]) hread (by
      rw [hrecord]
      exact (CraneRecord.accepts_iff _ _).2 hnewer)
    have htables : s.part.SameTables ((q.positionTelegram c f.seq f.payload).forwarded f) :=
      ((hkeep Scope.wide).trans
        ((q.positionTelegram_keeps (S := Scope.wide) c f.seq f.payload trivial).trans (Part.forwarded_keeps _ f))).sameTables
    obtain ⟨hmine, hothers⟩ := q.accepted_records (c := c) (t := raw.telegram q.params.length f.seq q.now)
      (clamped := (bringIntoRange q.params.length f.seq q.now raw).2) (g := gripperOf raw.gripper)
    rw [← haccept] at hmine hothers
    have hforwarded : ∀ d, ((q.positionTelegram c f.seq f.payload).forwarded f).record d =
        (q.positionTelegram c f.seq f.payload).record d :=
      Part.record_of_records (Part.forwarded_keeps (S := Scope.tight) _ f).records_eq
    refine ⟨_, hexec, rfl, ?_, fun d hd => ((hforwarded d).trans (hothers d hd)).trans (hrecord d), htables⟩
    refine ((hforwarded c).trans hmine).trans ?_
    have hclamp := if_congr (bringIntoRange_changed s.part.params.length f.seq s.part.mgmt.clock raw)
      (Eq.refl (bump (s.part.record c).clamp)) (Eq.refl (s.part.record c).clamp)
    have hx : (raw.telegram s.part.params.length f.seq s.part.mgmt.clock).x ≤ s.part.params.length - 1 := Nat.min_le_right ..
    rw [hrecord, Part.envelopeAt_congr hsame, hsame.params, hnow, Part.envelopeAt_fresh hx, CraneRecord.taken, hclamp]
    rfl
  · intro p w e overlap marked stopped
    refine ⟨Part.checkPair_of_untracked, fun hw he => ?_⟩
    have hoverlap : p.overlap w e = overlap := rfl
    rw [Part.checkPair_of_tracked hw he, hoverlap]
    refine ⟨fun h hx => ?_, fun h hx => ?_, fun h hx => ?_, fun h hx => ?_⟩
    · rw [if_neg (by omega), if_neg (by rw [hx]; decide)]
    · rw [if_neg (by omega), if_pos hx]
      rfl
    · rw [if_pos h, if_pos hx]
    · rw [if_pos h, if_neg (by rw [hx]; decide)]
      rfl
  · intro p c inCab loaded
    have hcab : p.inCabArea (p.craneX c) (p.craneY c) = true ↔ inCab := by
      rw [Part.inCabArea_iff]
      refine exists_congr fun b => and_congr_right fun _ => and_congr_right fun _ => ?_
      rw [BayEntry.inCab_iff]
      refine and_congr_right fun _ => and_congr_right fun _ => ?_
      cases hf : (p.bayEntry b).front with
      | east => simp
      | west => simp
    have hboth : (loaded ∧ inCab) ↔ ((p.hook c).loaded && p.inCabArea (p.craneX c) (p.craneY c)) = true := by
      rw [Bool.and_eq_true, Hook.loaded_iff, hcab]
    exact ⟨fun hl hi => if_pos (hboth.1 ⟨hl, hi⟩), fun h => if_neg (mt hboth.2 h)⟩
  · intro p c cause bay q
    refine ⟨p.requestStop_of_unconfigured c cause bay, fun h hc => ?_⟩
    obtain ⟨hlatch, hline, hnone⟩ := p.requestStop_new c cause bay h hc
    have hrest := p.requestStop_onlyCrane c cause bay
    exact ⟨by rw [hlatch, Latch.addBay_causes], hline, hnone, hrest.tracker, hrest.runs, hrest.latch⟩
  · intro p c r lo hi hm hr hlh hr32 hhi
    exact ⟨Part.takeEnvelope_grows hm hr hlh hr32 hhi, fun k => Part.takeEnvelope_stops hm hr⟩
  · intro p c r lo hi hr hlh hr32 hcover hfree
    refine ⟨fun ho => ⟨Part.release_to_cover hr hlh hr32 hfree ho hcover, fun h => ?_, fun h => ?_⟩, fun o ho => ?_⟩
    · have hrel := Part.release_to_nearest (lo := lo) (hi := hi) hr hlh hr32 hfree ho (.inl h)
      rwa [if_neg (by omega)] at hrel
    · have hrel := Part.release_to_nearest (lo := lo) (hi := hi) hr hlh hr32 hfree ho (.inr h)
      rwa [if_pos h] at hrel
    · rcases hz : p.zonesAt c o.permitted with ⟨a, b⟩
      exact Part.release_with_order hr hlh hr32 hfree ho hz hcover

end Sys2Proof.Machine
end

section
/-! O34. An ALLOCATE arrives: the checks of R121, the queue (R122) and the deferred requests (R123). -/

namespace Sys2Proof.Machine

section
variable {p : Part} {f : Frame} {r : RawAllocate}

/-! ## The checks (R121) -/

theorem Part.namedCrane_of_configured {crane : Option (Fin 4)} (h : ∀ c, crane = some c → (p.entry c).configured = true) :
    p.namedCrane (crane.map Fin.val) = some crane := by
  cases crane with
  | none => rfl
  | some c => simp [Part.namedCrane, craneOf_val, h c rfl]

theorem Part.namedCrane_of_unconfigured {n : Nat} (h : ∀ c : Fin 4, c.val = n → (p.entry c).configured = false) :
    p.namedCrane (some n) = none := by
  by_cases hn : n < 4
  · simp [Part.namedCrane, craneOf, hn, h ⟨n, hn⟩ rfl]
  · simp [Part.namedCrane, craneOf, hn]

/-- The sizes and the source x of a request are in range, and FROM_CRANE comes with a crane (R121). -/
def RawAllocate.inRange (r : RawAllocate) : Bool :=
  sizeInRange r.diameter && sizeInRange r.width && sourceInRange r.source r.crane

theorem RawAllocate.inRange_eq_false (h : r.diameter = some 0 ∨ r.width = some 0 ∨ (∃ x, r.source = .given x ∧ 262143 < x)
    ∨ (r.source = .fromCrane ∧ r.crane = none)) : r.inRange = false := by
  rcases h with h | h | ⟨x, h, hx⟩ | ⟨h, hc⟩
  · simp [RawAllocate.inRange, sizeInRange, h]
  · simp [RawAllocate.inRange, sizeInRange, h]
  · simp [RawAllocate.inRange, sourceInRange, h, hx]
  · simp [RawAllocate.inRange, sourceInRange, h, hc]

theorem sizeInRange_of_ne {n : Option Nat} (h : n ≠ some 0) : sizeInRange n = true := by
  cases n with
  | none => rfl
  | some v => exact decide_eq_true (Nat.one_le_iff_ne_zero.2 fun hv => h (congrArg some hv))

theorem RawAllocate.inRange_of_fit (hd : r.diameter ≠ some 0) (hw : r.width ≠ some 0)
    (hs : (∃ x, r.source = .given x ∧ x ≤ 262143) ∨ (r.source = .fromCrane ∧ r.crane ≠ none)) : r.inRange = true := by
  rw [RawAllocate.inRange, sizeInRange_of_ne hd, sizeInRange_of_ne hw]
  rcases hs with ⟨x, h, hx⟩ | ⟨h, hc⟩
  · simp [sourceInRange, h, hx]
  · simpa [sourceInRange, h, Option.isSome_iff_ne_none] using hc

theorem Part.checkAllocate_badValue (h : r.coil = none ∨ p.namedCrane r.crane = none ∨ r.inRange = false) :
    p.checkAllocate f r = .error .badValue := by
  unfold Part.checkAllocate
  split
  next coil crane hcoil hcrane =>
    have hrange : r.inRange = false := by simpa [hcoil, hcrane] using h
    exact if_pos (by rw [RawAllocate.inRange] at hrange; simp [hrange])
  next => rfl

/-- The request that an ALLOCATE brings. -/
def RawAllocate.request (r : RawAllocate) (seq : Byte) (id : CoilId) (crane : Option (Fin 4)) (since : Time) : Request :=
  ⟨seq, r.tag, id, r.weight, r.diameter, r.width, r.group, r.source, crane, r.mask, r.groundOnly, since⟩

variable {id : CoilId} {crane : Option (Fin 4)}

theorem Part.checkAllocate_fit (hcoil : r.coil = some id) (hcrane : p.namedCrane r.crane = some crane) (hrange : r.inRange = true) :
    p.checkAllocate f r =
      if r.weight.isNone && crane.isNone then .error .weightUnproven
      else if r.source == .fromCrane && !(crane.any fun c => (p.record c).last.isSome) then .error .craneUntracked
      else .ok (r.request f.seq id crane p.now) := by
  unfold Part.checkAllocate
  rw [hcoil, hcrane]
  exact if_neg (by rw [RawAllocate.inRange] at hrange; simp [hrange])

theorem serveAllocate_of_error {why : Reason} (hr : readAllocate f.payload = some r) (h : p.checkAllocate f r = .error why) :
    serveAllocate f p = p.giveAnswer ⟨0x63, f.seq, .refused, some why, answerHead r.tag r.coil r.crane⟩ := by
  unfold serveAllocate
  rw [hr]
  simp only [h]
  rfl

theorem serveAllocate_of_weight {q : Request} (hr : readAllocate f.payload = some r) (h : p.checkAllocate f r = .ok q)
    (hw : q.weight ≠ none) : serveAllocate f p = p.arriveQueued q := by
  obtain ⟨w, hw⟩ := Option.ne_none_iff_exists'.1 hw
  unfold serveAllocate
  rw [hr]
  simp only [h, hw]

theorem serveAllocate_of_deferred {q : Request} {c : Fin 4} (hr : readAllocate f.payload = some r) (h : p.checkAllocate f r = .ok q)
    (hw : q.weight = none) (hc : q.crane = some c) : serveAllocate f p = p.arriveDeferred c q := by
  unfold serveAllocate
  rw [hr]
  simp only [h, hw, hc]

/-! ## The queue and the deferred requests (R122, R123) -/

theorem Part.arriveDeferred_of_taken {c : Fin 4} {q : Request} (h : p.engine.deferred[c] ≠ none) :
    p.arriveDeferred c q = p.giveAnswer q.busy := if_pos (Option.isSome_iff_ne_none.2 h)

section
variable {c : Fin 4} {q : Request} (h : p.engine.deferred[c] = none)
include h

theorem Part.arriveDeferred_of_not_weighed (hw : (p.hook c).state ≠ .weighed) :
    p.arriveDeferred c q = p.setDeferred c (some ⟨q, .parked⟩) := by
  rw [Part.arriveDeferred, h]
  refine (if_neg Bool.false_ne_true).trans (if_neg ?_)
  simpa using hw

theorem Part.arriveDeferred_of_weighed {coil : Coil} (hw : (p.hook c).state = .weighed) (hcoil : (p.hook c).coil = some coil) :
    p.arriveDeferred c q =
      if coil.id = some q.coil then p.makeReady c q coil.weight coil.quality else p.giveAnswer (q.refusal .weightUnproven) := by
  rw [Part.arriveDeferred, h, hw, hcoil]
  rfl

end

end

/-! ## The frame (R126, R176) -/

section
variable {s : State} {f : Frame} {r : RawAllocate}

theorem exec_allocate_of_busy (hr : readAllocate f.payload = some r) (h : s.Request .allocate f) (ha : s.part.engine.answers ≠ []) :
    exec .allocate s = .next (s.withPart (s.part.dropSup.hold f)) := by
  obtain ⟨hrunning, -, -, -, -, hnone, -⟩ := id h
  have hheld : s.part.heldAllocate = none := by rw [Part.heldAllocate, hnone]; rfl
  rw [exec_allocate]
  refine State.act_eq hrunning ?_
  simp only [Part.allocateFrame, hheld]
  rw [manage_of_request h rfl anyForm rfl, if_pos (by rw [formFits, hr]; rfl)]
  exact if_pos (by simpa using ha)

/-- The part once the engine takes an ALLOCATE, at once or as the responder held it. -/
def State.Takes (s : State) (f : Frame) (taken : Part) : Prop :=
  s.Request .allocate f ∧ taken = s.part.dropSup
    ∨ s.part.inReset = false ∧ s.part.mgmt.held = some f ∧ f.kind = 0x63
      ∧ taken = { s.part with mgmt := { s.part.mgmt with held := none } }

theorem exec_allocate_of_taken {taken q : Part} (hr : readAllocate f.payload = some r) (h : s.Takes f taken)
    (ha : s.part.engine.answers = []) (hserve : serveAllocate f taken = q) : exec .allocate s = .next (s.withPart q) := by
  rw [exec_allocate, ← hserve]
  rcases h with ⟨h, rfl⟩ | ⟨hreset, hheld, hkind, rfl⟩
  · obtain ⟨hrunning, -, -, -, -, hnone, -⟩ := id h
    have hheld : s.part.heldAllocate = none := by rw [Part.heldAllocate, hnone]; rfl
    refine State.act_eq hrunning ?_
    simp only [Part.allocateFrame, hheld]
    rw [manage_of_request h rfl anyForm rfl, if_pos (by rw [formFits, hr]; rfl)]
    exact if_neg (by simp [ha])
  · have hheld : s.part.heldAllocate = some f := by
      rw [Part.heldAllocate, hheld]
      exact Option.filter_some_pos (by simp [hkind, Kind.code])
    refine State.act_eq hreset ?_
    simp only [Part.allocateFrame, hheld]
    exact if_neg (by simp [ha])

/-- Taking the frame leaves everything but the link and the responder's held frame. -/
theorem State.Takes.form {taken : Part} (h : s.Takes f taken) :
    ∃ (l : Link) (m : Mgmt), taken = { s.part with link := l, mgmt := m } ∧ m.clock = s.part.mgmt.clock := by
  rcases h with ⟨-, rfl⟩ | ⟨-, -, -, rfl⟩
  · exact ⟨_, s.part.mgmt, rfl, rfl⟩
  · exact ⟨s.part.link, _, rfl, rfl⟩

end

/-- Settles O34. -/
theorem allocateRequestsArrive : Obligations.AllocateRequestsArrive := by
  unfold Obligations.AllocateRequestsArrive
  intro s f r hr
  refine ⟨fun h ha => exec_allocate_of_busy hr h ha, fun taken ha htaken => ?_⟩
  intro gives
  have hexec : ∀ {q}, serveAllocate f taken = q → exec .allocate s = .next (s.withPart q) :=
    fun h => exec_allocate_of_taken hr htaken ha h
  obtain ⟨l, m, hform, hclock⟩ := State.Takes.form htaken
  have hrefused : ∀ {why}, taken.checkAllocate f r = .error why → gives .refused (some why) := fun h =>
    hexec (serveAllocate_of_error hr h)
  have hentry : ∀ c, taken.entry c = s.part.entry c := by rw [hform]; exact fun _ => rfl
  have hrecord : ∀ c, taken.record c = s.part.record c := by rw [hform]; exact fun _ => rfl
  have hhook : ∀ c, taken.hook c = s.part.hook c := by rw [hform]; exact fun _ => rfl
  have hengine : taken.engine = s.part.engine := by rw [hform]
  have hnow : taken.now = s.part.mgmt.clock := by rw [hform]; exact hclock
  have hx : ∀ c, taken.craneX c = s.part.craneX c := by rw [hform]; exact fun _ => rfl
  refine ⟨fun hbad => hrefused (Part.checkAllocate_badValue ?_), ?_⟩
  · rcases hbad with h | ⟨n, hn, h⟩ | h
    · exact .inl h
    · rw [hn]
      exact .inr (.inl (Part.namedCrane_of_unconfigured fun c hc => by rw [hentry, h c hc]))
    · exact .inr (.inr (RawAllocate.inRange_eq_false h))
  · intro id crane hid hcrane hconf hd hw hsource q
    have hnamed : taken.namedCrane r.crane = some crane := by
      rw [hcrane]
      exact Part.namedCrane_of_configured fun c hc => by rw [hentry, hconf c hc]
    have hrange : r.inRange = true := RawAllocate.inRange_of_fit hd hw (by simpa [hcrane] using hsource)
    have hcheck := Part.checkAllocate_fit (f := f) hid hnamed hrange
    have hq : r.request f.seq id crane taken.now = q := by rw [hnow]; rfl
    simp only [hq, hrecord] at hcheck
    refine ⟨fun hweight hnone => hrefused ?_, fun c hc hsrc hlast => hrefused ?_, fun htracked => ?_⟩
    · rw [hcheck, hweight, hnone]
      rfl
    · rw [hcheck, hc, hsrc]
      simp [hlast]
    · have hok : r.weight ≠ none ∨ crane ≠ none → taken.checkAllocate f r = .ok q := fun hor => by
        rw [hcheck, if_neg (by simpa [Option.isNone_iff_eq_none, imp_iff_not_or] using hor), if_neg]
        simp only [Bool.and_eq_true, beq_iff_eq, Bool.not_eq_true', not_and, Bool.not_eq_false]
        intro hsrc
        obtain ⟨c, hc⟩ : ∃ c, crane = some c := by
          rcases hsource with ⟨x, h, -⟩ | ⟨-, h⟩
          · exact absurd (hsrc.symm.trans h) (by simp)
          · exact Option.ne_none_iff_exists'.1 h
        simpa [hc, Option.isSome_iff_ne_none] using htracked c hc hsrc
      have hhead : q.answerHead = answerHead r.tag r.coil r.crane := by rw [hid, hcrane]; rfl
      have hbusy : ∀ {p : Part}, p.giveAnswer q.busy = p.giveAnswer ⟨0x63, f.seq, .busy, none, answerHead r.tag r.coil r.crane⟩ := by
        rw [← hhead]
        exact rfl
      refine ⟨fun hweight hlt => hexec ?_, fun hweight hle => hexec ?_, fun c hweight hc => ?_⟩
      · rw [serveAllocate_of_weight hr (hok (.inl hweight)) hweight, Part.arriveQueued, hengine]
        exact if_pos hlt
      · rw [serveAllocate_of_weight hr (hok (.inl hweight)) hweight, Part.arriveQueued, hengine]
        refine (if_neg (Nat.not_lt.2 hle)).trans hbusy
      · have hserve := serveAllocate_of_deferred hr (hok (.inr (by rw [hc]; exact Option.some_ne_none c))) hweight hc
        refine ⟨fun htook => hexec ?_, fun hfree => ?_⟩
        · rw [hserve, Part.arriveDeferred_of_taken (by rwa [hengine])]
          exact hbusy
        · have hfree' : taken.engine.deferred[c] = none := by rwa [hengine]
          refine ⟨fun hnot => hexec ?_, fun coil hstate hcoil => ?_⟩
          · rw [hserve, Part.arriveDeferred_of_not_weighed hfree' (by rwa [hhook])]
          · have harrive := Part.arriveDeferred_of_weighed (q := q) hfree' (by rwa [hhook]) (by rwa [hhook])
            refine ⟨fun hmatch => hexec ?_, fun hother => hexec ?_⟩
            · rw [hserve, harrive, if_pos hmatch, Part.makeReady, hx, hnow]
            · rw [hserve, harrive, if_neg hother, Request.refusal, hhead]
              rfl

end Sys2Proof.Machine
end

section
/-! O35. An allocation search: its start (R125 to R127) and its answer (R128 to R133). -/

namespace Sys2Proof.Machine

theorem nodup_craneList : craneList.Nodup := by decide

theorem mem_blockList (b : Fin 8) : b ∈ blockList := by fin_cases b <;> decide

/-! ## The start of a search (R125) -/

section
variable {p : Part}

/-- A crane has a deferred request that is ready (R124). -/
def Part.readyTime (p : Part) (c : Fin 4) : Option Time := p.engine.deferred[c].bind fun d => d.time false

theorem Part.readyRequests_of_none (h : ∀ c, p.readyTime c = none) :
    (craneList.filterMap fun c => (p.readyTime c).map fun t => (SearchOrigin.deferred c, t)) = [] := by
  simp [h]

theorem filterMap_of_only {α β : Type} {f : α → Option β} {a : α} {b : β} (ha : f a = some b) (l : List α) (hnd : l.Nodup)
    (hmem : a ∈ l) (h : ∀ x, x ≠ a → f x = none) : l.filterMap f = [b] := by
  obtain ⟨l₁, l₂, rfl⟩ := List.append_of_mem hmem
  have hout : ∀ l' : List α, a ∉ l' → l'.filterMap f = [] := fun l' hl =>
    List.filterMap_eq_nil_iff.2 fun x hx => h x fun hxa => hl (hxa ▸ hx)
  rw [List.nodup_append, List.nodup_cons] at hnd
  obtain ⟨-, ⟨ha2, -⟩, hdisj⟩ := hnd
  rw [List.filterMap_append, List.filterMap_cons, ha, hout l₁ fun hl => hdisj a hl a (List.mem_cons_self) rfl, hout l₂ ha2]
  rfl

theorem Part.waitingRequests_of_queue {q : Request} {rest : List Request} (hq : p.engine.queue = q :: rest)
    (h : ∀ c, p.readyTime c = none) : p.waitingRequests false = [(.queue, q.since)] := by
  have hnone := Part.readyRequests_of_none h
  rw [Part.waitingRequests, hq]
  exact congrArg ([(SearchOrigin.queue, q.since)] ++ ·) hnone

theorem Part.waitingRequests_of_ready {c : Fin 4} {t : Time} (hq : p.engine.queue = []) (hc : p.readyTime c = some t)
    (h : ∀ e, e ≠ c → p.readyTime e = none) : p.waitingRequests false = [(.deferred c, t)] := by
  have hone := filterMap_of_only (f := fun c => (p.readyTime c).map fun t => (SearchOrigin.deferred c, t)) (a := c)
    (b := (.deferred c, t)) (by rw [hc]; rfl) craneList nodup_craneList (mem_craneList c) fun e he => by rw [h e he]; rfl
  rw [Part.waitingRequests, hq]
  exact hone

/-- The part as the search of a request of a group starts. -/
def Part.searching (p : Part) (origin : SearchOrigin) (group : Nat) : Part :=
  { p with
    engine := { p.engine with
      search := some ⟨origin, p.engine.routing[groupClass group], p.params.overflow, p.params.ground, p.params.mix⟩ }
    slots := { p.slots with requests := p.slots.requests ++ [.search] } }

theorem Part.startSearch_of_only {o : SearchOrigin} {t : Time} {q : Request} (hw : p.waitingRequests false = [(o, t)])
    (hq : p.requestAt o = some q) : p.startSearch = p.searching o q.group := by
  have hpick : pickOldest p.now none (p.waitingRequests false) p.free = (some o, p.free) := by rw [hw]; rfl
  have hsearch : p.searchOf o =
      ⟨o, p.engine.routing[groupClass q.group], p.params.overflow, p.params.ground, p.params.mix⟩ := by
    simp only [Part.searchOf, hq]
    rfl
  rw [Part.startSearch, hpick]
  simp only [hsearch]
  rfl

end

theorem exec_allocationSearch_of_only {s : State} {o : SearchOrigin} {t : Time} {q : Request} (hr : s.part.inReset = false)
    (hs : s.part.engine.search = none) (ha : s.part.engine.answers = []) (hw : s.part.waitingRequests false = [(o, t)])
    (hq : s.part.requestAt o = some q) : exec .allocationSearch s = .next (s.withPart (s.part.searching o q.group)) := by
  rw [exec_allocationSearch]
  refine State.act_eq hr ?_
  rw [← Part.startSearch_of_only hw hq]
  exact if_pos (by simp [Part.searchDue, hs, ha, hw])

/-! ## Where a search looks (R127, R128) -/

section
variable {m : SlotMap} {q : Search} {blocks : List (Fin 8)}

/-- A block is the overflow block that a search may pass over in the end (R128). -/
def SlotMap.passesOver (m : SlotMap) (blocks : List (Fin 8)) (n : Nat) (b : Fin 8) : Bool :=
  b.val == n && m.blocks[b].defined && !blocks.contains b

theorem SlotMap.passesOver_iff (n : Nat) (b : Fin 8) :
    m.passesOver blocks n b = true ↔ b.val = n ∧ m.blocks[b].defined = true ∧ b ∉ blocks := by
  simp [SlotMap.passesOver, and_assoc]

theorem SlotMap.find_passesOver (n : Nat) (b : Fin 8) :
    blockList.find? (m.passesOver blocks n) = some b ↔ m.passesOver blocks n b = true := by
  refine ⟨fun h => List.find?_some h, fun h => ?_⟩
  obtain ⟨c, hc⟩ := Option.isSome_iff_exists.1 (List.find?_isSome.2 ⟨b, mem_blockList b, h⟩)
  obtain ⟨hcn, -⟩ := (SlotMap.passesOver_iff n c).1 (List.find?_some hc)
  obtain ⟨hbn, -⟩ := (SlotMap.passesOver_iff n b).1 h
  exact hc.trans (congrArg some (Fin.ext (hcn.trans hbn.symm)))

theorem SlotMap.overflowBlock_eq_some_iff (b : Fin 8) :
    m.overflowBlock q blocks = some b ↔ q.overflow = some b.val ∧ m.blocks[b].defined = true ∧ b ∉ blocks := by
  unfold SlotMap.overflowBlock
  cases q.overflow with
  | none => simp
  | some n =>
    refine (SlotMap.find_passesOver n b).trans ((SlotMap.passesOver_iff n b).trans ?_)
    rw [Option.some.injEq, eq_comm]

theorem SlotMap.winner_withRequests (ts : List SlotTask) (w : Wanted) (bs : List (Fin 8)) :
    ({ m with requests := ts } : SlotMap).winner q w bs = m.winner q w bs := rfl

end

/-! ## The end of a search (R131 to R133) -/

section
variable {p : Part} {q : Request} {sr : Search}

/-- The part without the request that was served, and without its search (R125). -/
def Part.withoutSearch (p : Part) (o : SearchOrigin) : Part :=
  { p with engine := { p.engine with
      queue := if o = .queue then p.engine.queue.tail else p.engine.queue
      deferred := match o with
        | .queue => p.engine.deferred
        | .deferred c => p.engine.deferred.set c none
      search := none } }

theorem Part.completeSearch_of_request (hs : p.engine.search = some sr) (hq : p.requestAt sr.origin = some q) :
    p.completeSearch = (p.searchAndAnswer q sr).withoutSearch sr.origin := by
  rw [Part.completeSearch, hs]
  simp only [hq]
  cases sr.origin with
  | queue => rw [Part.withoutSearch, if_pos rfl, ← List.drop_one]; rfl
  | deferred c => rfl

section
variable {w : Wanted} {blocks : List (Fin 8)} (hw : p.wanted q sr.origin = some w)
  (hb : p.slots.candidateBlocks q.mask sr.routing = blocks)
include hw hb

theorem Part.searchAndAnswer_of_found {i cost : Nat} {slot : Slot} (h : p.slots.winner sr w blocks = some (i, slot, cost)) :
    p.searchAndAnswer q sr = p.allocateSlot q w i slot cost false := by
  unfold Part.searchAndAnswer
  simp only [hw, hb, h]

theorem Part.searchAndAnswer_of_no_overflow (h : p.slots.winner sr w blocks = none) (ho : p.slots.overflowBlock sr blocks = none) :
    p.searchAndAnswer q sr = p.giveAnswer (q.reply .noSlot none (q.noSlotData blocks w)) := by
  unfold Part.searchAndAnswer
  simp only [hw, hb, h, ho]

theorem Part.searchAndAnswer_of_overflow {b : Fin 8} {i cost : Nat} {slot : Slot} (h : p.slots.winner sr w blocks = none)
    (ho : p.slots.overflowBlock sr blocks = some b) (hf : p.slots.winner sr w [b] = some (i, slot, cost)) :
    p.searchAndAnswer q sr = p.allocateSlot q w i slot cost true := by
  unfold Part.searchAndAnswer
  simp only [hw, hb, h, ho, hf]

theorem Part.searchAndAnswer_of_none {b : Fin 8} (h : p.slots.winner sr w blocks = none)
    (ho : p.slots.overflowBlock sr blocks = some b) (hf : p.slots.winner sr w [b] = none) :
    p.searchAndAnswer q sr = p.giveAnswer (q.reply .noSlot none (q.noSlotData (blocks ++ [b]) w)) := by
  unfold Part.searchAndAnswer
  simp only [hw, hb, h, ho, hf]

end

end

section
variable {s : State} {sr : Search} {q : Request} {waiting : List SlotTask}

theorem exec_searchComplete {u : Part} (hr : s.part.inReset = false) (ht : s.part.slots.requests = .search :: waiting)
    (hs : s.part.engine.search = some sr) (hq : s.part.requestAt sr.origin = some q)
    (h : (s.part.setRequests waiting).searchAndAnswer q sr = u) :
    exec .allocationSearchComplete s = .next (s.withPart (u.withoutSearch sr.origin)) := by
  rw [exec_allocationSearchComplete]
  refine State.act_eq hr ?_
  have hcomplete := Part.completeSearch_of_request (p := s.part.setRequests waiting) hs hq
  rw [← h, ← hcomplete]
  simp only [Part.finishSearch, Part.serveNext, ht]
  rfl

theorem Part.wanted_of_queue {p : Part} {weight x : Nat} (hw : q.weight = some weight)
    (hx : q.source = .given x ∨ (q.source = .fromCrane ∧ ∃ (c : Fin 4) (last : Telegram),
      q.crane = some c ∧ (p.record c).last = some last ∧ x = last.x)) :
    p.wanted q .queue = some ⟨⟨some q.coil, weight, .good, q.diameter, q.width, q.group⟩, x, q.groundOnly⟩ := by
  rcases hx with hx | ⟨hx, c, last, hc, hl, rfl⟩
  · simp [Part.wanted, hx, hw]
  · simp [Part.wanted, hx, hw, hc, hl]

theorem Part.wanted_of_cleared {p : Part} {c : Fin 4} (hx : q.source = .fromCrane) (hc : q.crane = some c)
    (hl : (p.record c).last = none) : p.wanted q .queue = none := by
  simp [Part.wanted, hx, hc, hl]

theorem Part.wanted_of_ready {p : Part} {c : Fin 4} {weight x : Nat} {quality : Quality} {since : Time}
    (h : p.engine.deferred[c] = some ⟨q, .ready weight quality x since⟩) :
    p.wanted q (.deferred c) = some ⟨⟨some q.coil, weight, quality, q.diameter, q.width, q.group⟩, x, q.groundOnly⟩ := by
  simp only [Part.wanted, h, Option.map_some]

theorem SlotMap.setContents_withRequests (m : SlotMap) (ts : List SlotTask) (i : Nat) (c : Contents) :
    ({ m with requests := ts } : SlotMap).setContents i c = { m.setContents i c with requests := ts } := by
  have hslot : ({ m with requests := ts } : SlotMap).slot i = m.slot i := rfl
  unfold SlotMap.setContents
  rw [hslot]
  cases m.slot i with
  | none => rfl
  | some slot => rfl

/-- A found slot is reserved while other requests wait (R112, R132). -/
theorem Part.allocateSlot_eq {w : Wanted} {i cost : Nat} {slot : Slot} {overflow : Bool} :
    (s.part.setRequests waiting).allocateSlot q w i slot cost overflow =
      let m := s.part.slots
      let r : Reservation :=
        ⟨m.counter, some q.coil, w.coil.weight, q.diameter, q.width, q.group, s.part.reservationExpiry, false⟩
      ({ s.part with slots := { m.setContents i (.reserved r) with
          counter := if m.counter < 65535 then m.counter + 1 else 1, requests := waiting } } : Part).giveAnswer
        (q.reply .allocated none (q.allocatedData i slot r cost overflow)) := by
  simp only [Part.allocateSlot, Part.makeReservation, nextReservation_eq, Part.setRequests, Part.onSlots,
    SlotMap.setContents_withRequests]
  rfl

end

/-- Settles O35. -/
theorem allocationSearchesAreServed : Obligations.AllocationSearchesAreServed := by
  unfold Obligations.AllocationSearchesAreServed
  refine ⟨?_, ?_⟩
  · intro s hr hs ha started ready
    have hready : ∀ c, ready c = false → s.part.readyTime c = none := fun c h =>
      Option.isNone_iff_eq_none.1 (Option.isSome_eq_false_iff.1 h)
    refine ⟨fun q rest hq hnone => ?_, fun c d hq hd hc hnone => ?_⟩
    · exact exec_allocationSearch_of_only hr hs ha (Part.waitingRequests_of_queue hq fun c => hready c (hnone c))
        (by rw [Part.requestAt, hq]; rfl)
    · obtain ⟨t, ht⟩ := Option.isSome_iff_exists.1 hc
      exact exec_allocationSearch_of_only hr hs ha
        (Part.waitingRequests_of_ready hq ht fun e he => hready e (hnone e he)) (by rw [Part.requestAt, hd]; rfl)
  · intro s waiting sr q hr ht hs ended
    have hended : ∀ {m answer why data}, s.part.requestAt sr.origin = some q →
        (s.part.setRequests waiting).searchAndAnswer q sr =
          ({ s.part with slots := { m with requests := waiting } } : Part).giveAnswer ⟨0x63, q.frameSeq, answer, why, data⟩ →
        ended m answer why data := fun hq h => exec_searchComplete hr ht hs hq h
    refine ⟨fun c ho hq hsrc hcrane hlast => ?_, ?_⟩
    · refine hended (by rw [ho]; exact hq) ?_
      have hwanted : (s.part.setRequests waiting).wanted q sr.origin = none := by
        rw [ho]
        exact Part.wanted_of_cleared hsrc hcrane hlast
      simp only [Part.searchAndAnswer, hwanted, Request.refusal, Request.answerHead, hcrane]
      rfl
    · intro weight quality x hcase w m blocks found overflows
      obtain ⟨hq, hwanted⟩ : s.part.requestAt sr.origin = some q ∧ (s.part.setRequests waiting).wanted q sr.origin = some w := by
        rcases hcase with ⟨ho, hq, hweight, rfl, hx⟩ | ⟨c, since, ho, hd⟩
        · rw [ho]
          exact ⟨hq, Part.wanted_of_queue hweight hx⟩
        · rw [ho]
          exact ⟨by rw [Part.requestAt, hd]; rfl, Part.wanted_of_ready hd⟩
      have hblocks : (s.part.setRequests waiting).slots.candidateBlocks q.mask sr.routing = blocks := rfl
      have hwinner : ∀ bs, (s.part.setRequests waiting).slots.winner sr w bs = m.winner sr w bs := fun bs =>
        SlotMap.winner_withRequests (m := m) (q := sr) waiting w bs
      have hoverflow : ∀ b, (s.part.setRequests waiting).slots.overflowBlock sr blocks = some b ↔ overflows b :=
        SlotMap.overflowBlock_eq_some_iff
      refine ⟨fun i slot cost h => hended hq ?_, fun h => ⟨fun hnone => hended hq ?_, fun b hb => ⟨fun i slot cost hf => hended hq ?_,
        fun hf => hended hq ?_⟩⟩⟩
      · rw [Part.searchAndAnswer_of_found hwanted hblocks ((hwinner blocks).trans h), Part.allocateSlot_eq]
        rfl
      · rw [Part.searchAndAnswer_of_no_overflow hwanted hblocks ((hwinner blocks).trans h)
          (Option.eq_none_iff_forall_ne_some.2 fun b hb => hnone b ((hoverflow b).1 hb))]
        rfl
      · rw [Part.searchAndAnswer_of_overflow hwanted hblocks ((hwinner blocks).trans h) ((hoverflow b).2 hb) ((hwinner [b]).trans hf),
          Part.allocateSlot_eq]
        rfl
      · rw [Part.searchAndAnswer_of_none hwanted hblocks ((hwinner blocks).trans h) ((hoverflow b).2 hb) ((hwinner [b]).trans hf)]
        rfl

end Sys2Proof.Machine
end
